-- ==== Sys2Proof/Word.lean ====
section
/-! DEFINITION. The word types of ZSC: every register, snapshot word and plane element is one
16-bit value moved whole (spec/20_memory.md R62, R65), bit 0 being the least significant (R10). -/

namespace Sys2Proof

/-- A register, snapshot word, plane element or response: 16 bits (R62). -/
abbrev Word := BitVec 16

/-- A pixel index, priority, threshold or mask of 8 bits. -/
abbrev Byte := BitVec 8

/-- A command word (R80): 32 bits. -/
abbrev CmdWord := BitVec 32

/-- A screen coordinate, position or zoom factor: 10 bits, arithmetic mod 1024 (R8). -/
abbrev Coord := BitVec 10

/-- A register address or a snapshot word address (R21, R38): 11 bits. -/
abbrev Addr := BitVec 11

/-- A color word with its attribute word (R88, R89): one plane element pair, one host layer pixel,
or the pair (paletteBase, attr) that the color wiring answers. -/
structure Pixel where
  color : Word
  attr  : Word
deriving DecidableEq, Repr, Inhabited

/-- A total function on indices, as plain data: `cells` lists the indices that differ, every other
index has the value `fill`. A total function on a finite index range is always such a table. -/
structure Table (α : Type) where
  fill  : α
  cells : List (Nat × α)
deriving DecidableEq, Repr, Inhabited

end Sys2Proof
end

