-- ==== Sys2Proof/Config.lean ====
section
/-! DEFINITION. The configuration of a ZSC: the named parameters of spec/00_scope.md R9 as one record
of plain data, and the two constants of the model that have no body, so that no proof can see their
value (free values): the installation a reset machine stands in, and the snapshot words after a reset. -/

namespace Sys2Proof

/-- The parameters and capabilities of R9, fixed for one machine (R282). The two capabilities are total
and pure functions of finite arguments (R68), held as tables. -/
structure Installation where
  /-- FLIP_PIVOT (R9, R113). -/
  flipPivot      : Coord
  /-- TILE_DELTA_X[0..7] (R9, R121). -/
  tileDeltaX     : Vector Word 8
  /-- TILE_DELTA_Y[0..7] (R9, R121). -/
  tileDeltaY     : Vector Word 8
  /-- MAX_W - 1: R9 gives MAX_W the range 1..1024, so this is 0..1023. -/
  maxWLess1      : Fin 1024
  /-- MAX_H - 1: R9 gives MAX_H the range 1..1024, so this is 0..1023. -/
  maxHLess1      : Fin 1024
  /-- TILE_ROM_PRESENT (R9, R254). -/
  tileRomPresent : Bool
  /-- TileFetch (R9, R63), the index of texel (u, v) of tile id at 256 * id + 16 * v + u. -/
  tileRom        : Table Byte
  /-- ColorWire (R9, R68), (paletteBase, attr) of the raw code at index raw. -/
  colorWiring    : Table Pixel
deriving DecidableEq, Repr, Inhabited

/-- MAX_W of R9. -/
def Installation.maxW (c : Installation) : Nat := c.maxWLess1.val + 1

/-- MAX_H of R9. -/
def Installation.maxH (c : Installation) : Nat := c.maxHLess1.val + 1

/-- The installation the machine after power-on stands in: free, because R9 makes every parameter a
model argument (notes/assumptions/2.md). -/
opaque Config.installation : Installation

/-- `Config.snapAfterReset n a`: what snapshot word `a` holds after the `n`-th reset while nothing has
written it: free, because R281 leaves each word of each reset unspecified (notes/assumptions/1.md). -/
opaque Config.snapAfterReset : Nat → Nat → Word

end Sys2Proof
end

