-- ==== Sys2Proof/Syntax.lean ====
section
/-! DEFINITION. The instructions of ZSC: one constructor per row of spec/opcode_table.json, the seven host
commands of spec/44_host_commands.md and the four tile-draw variants of spec/42_sprite_compositor.md R151-R154. -/

namespace Sys2Proof

/-- The operands of `PixelOp_tdv(x, y, idx, pm, pal, wattr, blk)` (R147, R151-R154). -/
structure PixelArgs where
  /-- column of the plane element -/
  x     : Nat
  /-- row of the plane element -/
  y     : Nat
  /-- the pixel index, already masked to the active depth -/
  idx   : Byte
  /-- the pen mask of the active depth (R92) -/
  pm    : Byte
  /-- the palette base that the color wiring gave the sprite -/
  pal   : Word
  /-- the attribute that the color wiring gave the sprite -/
  wattr : Word
  /-- the sprite's attribute block (R159) -/
  blk   : Fin 4
deriving DecidableEq, Repr

/-- The instructions. The commands carry the fields R81 says they read; a tile-draw variant carries the
operands of its pixel operation. -/
inductive Instr where
  | reset
  | regWr (addr : Addr) (data : Word)
  | regRd (addr : Addr)
  | snapWr (addr : Addr) (data : Word)
  | snapRd (addr : Addr)
  | compose
  | mix
  | tdForcePlain (p : PixelArgs)
  | tdForceShadow (p : PixelArgs)
  | tdKeepPlain (p : PixelArgs)
  | tdKeepShadow (p : PixelArgs)
deriving DecidableEq, Repr

/-- The 2-bit tile-draw variant code of R90, its two choices apart. -/
structure Tdv where
  /-- bit 1: keep-existing-bits (true) or force-write (false) -/
  keep   : Bool
  /-- bit 0: shadow-color-detect (true) or plain transparency (false) -/
  detect : Bool
deriving DecidableEq, Repr

/-- A tile-draw variant as the rasterizer of a COMPOSE pass dispatches it: the TDV2 code of the opcode table
with the operands of the pixel operation, which the spec gives no bits (R96). -/
structure PixelItem where
  code : BitVec 2
  args : PixelArgs
deriving DecidableEq, Repr

/-- The encodings of instructions: a command is one 32-bit word (R80), a tile-draw variant has the 2-bit
code of R90 and no command encoding (R96). -/
inductive Encoded where
  | command (w : CmdWord)
  | tileDraw (item : PixelItem)
deriving DecidableEq, Repr

end Sys2Proof
end

