-- ==== Sys2Proof/Machine/State.lean ====
section
/-! DEFINITION. The state of ZSC as plain data: everything spec/10_state.md R20 lists, the command and layer
ports of spec/44_host_commands.md R220, the installation of R9, and two fields of the model's own (`resets`,
`pixelSlot`); the reasons a step can stop; the state after reset. -/

namespace Sys2Proof.Machine

/-- The mapped registers, by name (R21). -/
inductive Reg where
  | sprCtrl
  | sprScrollX
  | sprScrollY
  | sprKeepMask
  | sprBlkCtrl (b : Fin 4)
  | sprBlkShadow (b : Fin 4)
  | sprCollisions
  | status
  | visMinX
  | visMaxX
  | visMinY
  | visMaxY
  | mixCtrl
  | shdCtrl (n : Fin 3)
  | lyrPri (l : Fin 8)
  | lyrOvr (l : Fin 8)
  | lyrCol (l : Fin 8)
  | lyrMask (l : Fin 8)
deriving DecidableEq, Repr

/-- The control registers (R21-R36), 16 bits each. -/
structure Regs where
  sprCtrl       : Word
  sprScrollX    : Word
  sprScrollY    : Word
  sprKeepMask   : Word
  sprBlkCtrl    : Vector Word 4
  sprBlkShadow  : Vector Word 4
  sprCollisions : Word
  status        : Word
  visMinX       : Word
  visMaxX       : Word
  visMinY       : Word
  visMaxY       : Word
  mixCtrl       : Word
  shdCtrl       : Vector Word 3
  lyrPri        : Vector Word 8
  lyrOvr        : Vector Word 8
  lyrCol        : Vector Word 8
  lyrMask       : Vector Word 8
deriving DecidableEq, Repr

/-- A memory of 16-bit words: the listed (index, word) pairs, indices strictly rising. What an unlisted index
reads as is fixed where the memory is read (`snapRead`, `planeRead` in Machine/Ops.lean). -/
abbrev WordMem := List (Nat × Word)

/-- An event of the diagnostic stream, `Collision(bucket, oldIndex, newIndex)`, each in 0..255 (R43). -/
structure Collision where
  bucket   : Byte
  oldIndex : Byte
  newIndex : Byte
deriving DecidableEq, Repr

/-- The pixel inputs of the layer port (R226), under the layer names of R37: total functions of the screen
coordinate, as tables whose index of coordinate (sx, sy) is 1024 * sy + sx. The sprite layer has none. -/
structure LayerInputs where
  gen1 : Table Pixel
  gen2 : Table Pixel
  gen3 : Table Pixel
  gen4 : Table Pixel
  aux1 : Table Pixel
  aux2 : Table Pixel
  aux3 : Table Pixel
  bg   : Table Pixel
deriving DecidableEq, Repr

/-- One command as the host presents it: the word, and what the host holds on the layer port for the duration
of that command (R220; only MIX reads it). -/
structure HostCommand where
  word   : CmdWord
  layers : LayerInputs
deriving DecidableEq, Repr

/-- The state of the machine. -/
structure State where
  /-- the control registers (R21) -/
  regs      : Regs
  /-- the snapshot memory SNAP (R38): the words written since the last reset; an unlisted word below 2048
  holds its unspecified value (R281) -/
  snap      : WordMem
  /-- the model's own: the number of resets after power-on, which selects the unspecified SNAP words -/
  resets    : Nat
  /-- SPR_C (R39); element (x, y) at index 1024 * y + x, an unlisted element of a plane is 0x0000 -/
  sprC      : WordMem
  /-- SPR_A (R39) -/
  sprA      : WordMem
  /-- FR_C (R40) -/
  frC       : WordMem
  /-- FR_A (R40) -/
  frA       : WordMem
  /-- BK_C (R40) -/
  bkC       : WordMem
  /-- BK_A (R40) -/
  bkA       : WordMem
  /-- ALLOC_W (R41): the planes' width, 0 when no planes are allocated -/
  allocW    : Nat
  /-- ALLOC_H (R41) -/
  allocH    : Nat
  /-- the shadow value tables SHT[0..2], 256 entries each (R42) -/
  sht       : Vector (List Bool) 3
  /-- the diagnostic stream DIAG, oldest event first (R43) -/
  diag      : List Collision
  /-- the 16-bit response of the last command (R80, R220) -/
  response  : Word
  /-- the commands the host has still to present, the next one first (R220) -/
  port      : List HostCommand
  /-- the layer port's inputs for the command being performed (R220, R226) -/
  layers    : LayerInputs
  /-- the model's own: a tile-draw variant the rasterizer is to perform as a step of its own; empty at every
  command boundary (R44, R96) -/
  pixelSlot : Option PixelItem
  /-- the installation's parameters and capabilities (R9); no step changes them (R282) -/
  cfg       : Installation
deriving DecidableEq, Repr

/-- Why a step stops with a fault. -/
inductive Fault where
  /-- raised by a tile-draw variant performed on an element outside the allocated planes, which do not exist
  there (R39, R61); no COMPOSE pass raises it; safe: the model stops where the spec has no behaviour -/
  | planeElementAbsent
deriving DecidableEq, Repr

/-- Why a step has no meaning. -/
inductive Refusal where
  /-- raised by an arm of `exec` whose instruction has no meaning yet, naming it; safe; no arm does -/
  | notModelled (mnemonic : String)
deriving DecidableEq, Repr

/-- Every mapped register 0x0000 (R48, R222). -/
def Regs.zero : Regs where
  sprCtrl       := 0
  sprScrollX    := 0
  sprScrollY    := 0
  sprKeepMask   := 0
  sprBlkCtrl    := Vector.replicate 4 0
  sprBlkShadow  := Vector.replicate 4 0
  sprCollisions := 0
  status        := 0
  visMinX       := 0
  visMaxX       := 0
  visMinY       := 0
  visMaxY       := 0
  mixCtrl       := 0
  shdCtrl       := Vector.replicate 3 0
  lyrPri        := Vector.replicate 8 0
  lyrOvr        := Vector.replicate 8 0
  lyrCol        := Vector.replicate 8 0
  lyrMask       := Vector.replicate 8 0

/-- A layer port on which every input is 0x0000/0x0000 everywhere. -/
def LayerInputs.zero : LayerInputs where
  gen1 := ⟨⟨0, 0⟩, []⟩
  gen2 := ⟨⟨0, 0⟩, []⟩
  gen3 := ⟨⟨0, 0⟩, []⟩
  gen4 := ⟨⟨0, 0⟩, []⟩
  aux1 := ⟨⟨0, 0⟩, []⟩
  aux2 := ⟨⟨0, 0⟩, []⟩
  aux3 := ⟨⟨0, 0⟩, []⟩
  bg   := ⟨⟨0, 0⟩, []⟩

/-- The machine after power-on (R48, R280): registers 0x0000, SHT all zero, DIAG empty, no planes, SNAP
unspecified; nothing on the command port. `resets`, `response`, `layers`, `port`, `pixelSlot` and `cfg` have the
values notes/assumptions/1.md to 6.md name. -/
def State.reset : State where
  regs      := Regs.zero
  snap      := []
  resets    := 0
  sprC      := []
  sprA      := []
  frC       := []
  frA       := []
  bkC       := []
  bkA       := []
  allocW    := 0
  allocH    := 0
  sht       := Vector.replicate 3 (List.replicate 256 false)
  diag      := []
  response  := 0
  port      := []
  layers    := LayerInputs.zero
  pixelSlot := none
  cfg       := Config.installation

end Sys2Proof.Machine
end

