-- ==== Sys2Proof/Machine/Flags.lean ====
section
/-! DEFINITION. The flags of ZSC: the three sticky error bits of STATUS and the count of SPR_COLLISIONS; it has
no arithmetic flags (spec/10_state.md R28, R29, R47; spec/60_exceptions.md R250). -/

namespace Sys2Proof.Machine

/-- A set of configuration-error causes (R250). -/
structure Causes where
  /-- E_CMD: a reserved OP value (R252) -/
  eCmd  : Bool := false
  /-- E_RECT: the visible rectangle is not valid (R253) -/
  eRect : Bool := false
  /-- E_TILE: the tile-fetch capability is not connected (R254) -/
  eTile : Bool := false
deriving DecidableEq, Repr

/-- The STATUS bits of a set of causes: E_CMD bit 0, E_RECT bit 1, E_TILE bit 2 (R29, R250). -/
def causeBits (c : Causes) : Word :=
  (if c.eCmd then 0x0001 else 0) ||| (if c.eRect then 0x0002 else 0) ||| (if c.eTile then 0x0004 else 0)

/-- Whether a set of causes is not empty. -/
def causesAny (c : Causes) : Bool := c.eCmd || c.eRect || c.eTile

/-- STATUS after `raise ConfigError(S)`: its own bits are set, no bit is cleared (R251, R256). -/
def statusAfter (status : Word) (c : Causes) : Word := status ||| causeBits c

/-- SPR_COLLISIONS.COUNT one higher (R28, R142). -/
def countUp (count : Word) : Word := count + 1

end Sys2Proof.Machine
end

