-- ==== Sys2Proof/Machine/Operands.lean ====
section
/-! DEFINITION. Where operands come from: the register map and the access to a register by name
(spec/10_state.md R21), the fields of every register (R22-R36), the sprite record (spec/30_encoding.md R86,
R87), the bit-depth codes (R92), the attribute word (R88), the capabilities (R9) and the layer port (R226). -/

namespace Sys2Proof.Machine

/-! ### The register map (R21) -/

/-- The register at a register address, none where the address is unmapped (R21). -/
def regOfAddr (a : Addr) : Option Reg :=
  match a.toNat with
  | 0x000 => some .sprCtrl
  | 0x001 => some .sprScrollX
  | 0x002 => some .sprScrollY
  | 0x003 => some .sprKeepMask
  | 0x00C => some .sprCollisions
  | 0x00D => some .status
  | 0x010 => some .visMinX
  | 0x011 => some .visMaxX
  | 0x012 => some .visMinY
  | 0x013 => some .visMaxY
  | 0x020 => some .mixCtrl
  | n =>
    if 0x004 ≤ n ∧ n ≤ 0x007 then some (.sprBlkCtrl (Fin.ofNat 4 (n - 0x004)))
    else if 0x008 ≤ n ∧ n ≤ 0x00B then some (.sprBlkShadow (Fin.ofNat 4 (n - 0x008)))
    else if 0x021 ≤ n ∧ n ≤ 0x023 then some (.shdCtrl (Fin.ofNat 3 (n - 0x021)))
    else if 0x028 ≤ n ∧ n ≤ 0x047 then
      let l := Fin.ofNat 8 ((n - 0x028) / 4)
      match (n - 0x028) % 4 with
      | 0 => some (.lyrPri l)
      | 1 => some (.lyrOvr l)
      | 2 => some (.lyrCol l)
      | _ => some (.lyrMask l)
    else none

/-- The register address of a register (R21). -/
def regAddr : Reg → Addr
  | .sprCtrl => 0x000
  | .sprScrollX => 0x001
  | .sprScrollY => 0x002
  | .sprKeepMask => 0x003
  | .sprBlkCtrl b => BitVec.ofNat 11 (0x004 + b.val)
  | .sprBlkShadow b => BitVec.ofNat 11 (0x008 + b.val)
  | .sprCollisions => 0x00C
  | .status => 0x00D
  | .visMinX => 0x010
  | .visMaxX => 0x011
  | .visMinY => 0x012
  | .visMaxY => 0x013
  | .mixCtrl => 0x020
  | .shdCtrl n => BitVec.ofNat 11 (0x021 + n.val)
  | .lyrPri l => BitVec.ofNat 11 (0x028 + 4 * l.val)
  | .lyrOvr l => BitVec.ofNat 11 (0x029 + 4 * l.val)
  | .lyrCol l => BitVec.ofNat 11 (0x02A + 4 * l.val)
  | .lyrMask l => BitVec.ofNat 11 (0x02B + 4 * l.val)

/-- FIELDMASK (R22-R36): the bits of a register that hold a field; every other bit is reserved (R21). -/
def fieldMask : Reg → Word
  | .sprCtrl => 0x00FF
  | .sprScrollX => 0x03FF
  | .sprScrollY => 0x03FF
  | .sprKeepMask => 0xFFFF
  | .sprBlkCtrl _ => 0x01FF
  | .sprBlkShadow _ => 0xFFFF
  | .sprCollisions => 0x01FF
  | .status => 0x0007
  | .visMinX => 0x03FF
  | .visMaxX => 0x03FF
  | .visMinY => 0x03FF
  | .visMaxY => 0x03FF
  | .mixCtrl => 0x0001
  | .shdCtrl _ => 0x03FF
  | .lyrPri l => if l.val < 2 then 0xFFFF else 0x00FF
  | .lyrOvr _ => 0x01FF
  | .lyrCol _ => 0x1FFF
  | .lyrMask _ => 0x03FF

/-- Whether the access of a register is RW; SPR_COLLISIONS and STATUS are RO (R21). -/
def regWritable : Reg → Bool
  | .sprCollisions => false
  | .status => false
  | _ => true

/-- The value a register holds. -/
def regGet (r : Regs) : Reg → Word
  | .sprCtrl => r.sprCtrl
  | .sprScrollX => r.sprScrollX
  | .sprScrollY => r.sprScrollY
  | .sprKeepMask => r.sprKeepMask
  | .sprBlkCtrl b => r.sprBlkCtrl[b]
  | .sprBlkShadow b => r.sprBlkShadow[b]
  | .sprCollisions => r.sprCollisions
  | .status => r.status
  | .visMinX => r.visMinX
  | .visMaxX => r.visMaxX
  | .visMinY => r.visMinY
  | .visMaxY => r.visMaxY
  | .mixCtrl => r.mixCtrl
  | .shdCtrl n => r.shdCtrl[n]
  | .lyrPri l => r.lyrPri[l]
  | .lyrOvr l => r.lyrOvr[l]
  | .lyrCol l => r.lyrCol[l]
  | .lyrMask l => r.lyrMask[l]

/-- The registers with one of them holding `v`. -/
def regSet (r : Regs) (v : Word) : Reg → Regs
  | .sprCtrl => { r with sprCtrl := v }
  | .sprScrollX => { r with sprScrollX := v }
  | .sprScrollY => { r with sprScrollY := v }
  | .sprKeepMask => { r with sprKeepMask := v }
  | .sprBlkCtrl b => { r with sprBlkCtrl := r.sprBlkCtrl.set b v }
  | .sprBlkShadow b => { r with sprBlkShadow := r.sprBlkShadow.set b v }
  | .sprCollisions => { r with sprCollisions := v }
  | .status => { r with status := v }
  | .visMinX => { r with visMinX := v }
  | .visMaxX => { r with visMaxX := v }
  | .visMinY => { r with visMinY := v }
  | .visMaxY => { r with visMaxY := v }
  | .mixCtrl => { r with mixCtrl := v }
  | .shdCtrl n => { r with shdCtrl := r.shdCtrl.set n v }
  | .lyrPri l => { r with lyrPri := r.lyrPri.set l v }
  | .lyrOvr l => { r with lyrOvr := r.lyrOvr.set l v }
  | .lyrCol l => { r with lyrCol := r.lyrCol.set l v }
  | .lyrMask l => { r with lyrMask := r.lyrMask.set l v }

/-! ### Bit depths (R92) -/

/-- The bits per pixel of a bit-depth code: `4 + min(c, 4)` (R92). -/
def depthOf (c : BitVec 3) : Nat := 4 + min c.toNat 4

/-- The pen mask `PM(d) = 2^d - 1` (R92), as an 8-bit value: d is at most 8. -/
def penMask (d : Nat) : Byte := BitVec.ofNat 8 (2 ^ d - 1)

/-! ### Fields of the compositor's registers (R22-R27) -/

/-- SPR_CTRL.PINV (R22). -/
def sprPinv (r : Regs) : Bool := r.sprCtrl.getLsbD 0

/-- SPR_CTRL.BPP (R22). -/
def sprBpp (r : Regs) : BitVec 3 := r.sprCtrl.extractLsb' 1 3

/-- SPR_CTRL.WRAP (R22). -/
def sprWrap (r : Regs) : Bool := r.sprCtrl.getLsbD 4

/-- SPR_CTRL.SDET (R22). -/
def sprSdet (r : Regs) : Bool := r.sprCtrl.getLsbD 5

/-- SPR_CTRL.GFLIPX (R22). -/
def sprGflipX (r : Regs) : Bool := r.sprCtrl.getLsbD 6

/-- SPR_CTRL.GFLIPY (R22). -/
def sprGflipY (r : Regs) : Bool := r.sprCtrl.getLsbD 7

/-- SPR_SCROLLX.SCROLL (R23). -/
def scrollX (r : Regs) : Coord := r.sprScrollX.extractLsb' 0 10

/-- SPR_SCROLLY.SCROLL (R24). -/
def scrollY (r : Regs) : Coord := r.sprScrollY.extractLsb' 0 10

/-- SPR_KEEPMASK.KEEP (R25). -/
def keepMask (r : Regs) : Word := r.sprKeepMask

/-- SPR_BLK_CTRL(b).TMASK (R26). -/
def blkTmask (r : Regs) (b : Fin 4) : Byte := r.sprBlkCtrl[b].extractLsb' 0 8

/-- SPR_BLK_CTRL(b).WP (R26). -/
def blkWp (r : Regs) (b : Fin 4) : Bool := r.sprBlkCtrl[b].getLsbD 8

/-- SPR_BLK_SHADOW(b).SATTR (R27). -/
def blkSattr (r : Regs) (b : Fin 4) : Word := r.sprBlkShadow[b]

/-! ### The visible rectangle (R30) -/

/-- VIS_MINX[9:0] (R30). -/
def visMinX (r : Regs) : Coord := r.visMinX.extractLsb' 0 10

/-- VIS_MAXX[9:0] (R30). -/
def visMaxX (r : Regs) : Coord := r.visMaxX.extractLsb' 0 10

/-- VIS_MINY[9:0] (R30). -/
def visMinY (r : Regs) : Coord := r.visMinY.extractLsb' 0 10

/-- VIS_MAXY[9:0] (R30). -/
def visMaxY (r : Regs) : Coord := r.visMaxY.extractLsb' 0 10

/-- `RW = VIS_MAXX - VIS_MINX + 1` (R30), where VIS_MINX is not above VIS_MAXX. -/
def rectW (r : Regs) : Nat := (visMaxX r).toNat + 1 - (visMinX r).toNat

/-- `RH = VIS_MAXY - VIS_MINY + 1` (R30), where VIS_MINY is not above VIS_MAXY. -/
def rectH (r : Regs) : Nat := (visMaxY r).toNat + 1 - (visMinY r).toNat

/-! ### Fields of the mixer's registers (R31-R36) -/

/-- MIX_CTRL.PINV (R31). -/
def mixPinv (r : Regs) : Bool := r.mixCtrl.getLsbD 0

/-- THR of a value of SHD_CTRL(n) (R32). -/
def shdThr (v : Word) : Byte := v.extractLsb' 0 8

/-- MODE of a value of SHD_CTRL(n) (R32). -/
def shdMode (v : Word) : BitVec 2 := v.extractLsb' 8 2

/-- LYR_PRI(L).PRI (R33). -/
def lyrPri (r : Regs) (l : Fin 8) : Byte := r.lyrPri[l].extractLsb' 0 8

/-- LYR_PRI(L).ALT (R33); only L = 0 and L = 1 have it. -/
def lyrAlt (r : Regs) (l : Fin 8) : Byte := r.lyrPri[l].extractLsb' 8 8

/-- LYR_OVR(L).THR (R34). -/
def lyrOvrThr (r : Regs) (l : Fin 8) : Byte := r.lyrOvr[l].extractLsb' 0 8

/-- LYR_OVR(L).EN (R34). -/
def lyrOvrEn (r : Regs) (l : Fin 8) : Bool := r.lyrOvr[l].getLsbD 8

/-- LYR_COL(L).BANK (R35). -/
def lyrBank (r : Regs) (l : Fin 8) : Byte := r.lyrCol[l].extractLsb' 0 8

/-- LYR_COL(L).BPP (R35). -/
def lyrBpp (r : Regs) (l : Fin 8) : BitVec 3 := r.lyrCol[l].extractLsb' 8 3

/-- LYR_COL(L).SHEN (R35). -/
def lyrShen (r : Regs) (l : Fin 8) : Bool := r.lyrCol[l].getLsbD 11

/-- LYR_COL(L).DISP (R35). -/
def lyrDisp (r : Regs) (l : Fin 8) : Bool := r.lyrCol[l].getLsbD 12

/-- LYR_MASK(L).BMASK (R36). -/
def lyrBmask (r : Regs) (l : Fin 8) : Byte := r.lyrMask[l].extractLsb' 0 8

/-- LYR_MASK(L).MMASK (R36). -/
def lyrMmask (r : Regs) (l : Fin 8) : BitVec 2 := r.lyrMask[l].extractLsb' 8 2

/-! ### Fields of an attribute word (R88) -/

/-- SH, the shadow flag (R88). -/
def attrSh (a : Word) : Bool := a.getLsbD 12

/-- SG, the shadow group; 3 is no group (R88). -/
def attrSg (a : Word) : BitVec 2 := a.extractLsb' 13 2

/-- SE, shadow-eligible (R88). -/
def attrSe (a : Word) : Bool := a.getLsbD 15

/-! ### The sprite record (R86, R87) -/

/-- The fields of a sprite record (R86). -/
structure SpriteRecord where
  active   : Bool
  sizeY    : BitVec 2
  sizeX    : BitVec 2
  flipY    : Bool
  flipX    : Bool
  priority : Byte
  tileBase : Word
  posX     : Coord
  posY     : Coord
  zoomX    : Coord
  zoomY    : Coord
  color    : Word
  shmode   : BitVec 2
  mirrorX  : Bool
  mirrorY  : Bool
deriving DecidableEq, Repr

/-- The record of eight words `w 0` to `w 7` (R86); reserved bits are not read (R87). -/
def recordOfWords (w : Nat → Word) : SpriteRecord where
  active   := (w 0).getLsbD 15
  sizeY    := (w 0).extractLsb' 12 2
  sizeX    := (w 0).extractLsb' 10 2
  flipY    := (w 0).getLsbD 9
  flipX    := (w 0).getLsbD 8
  priority := (w 0).extractLsb' 0 8
  tileBase := w 1
  posX     := (w 2).extractLsb' 0 10
  posY     := (w 3).extractLsb' 0 10
  zoomX    := (w 4).extractLsb' 0 10
  zoomY    := (w 5).extractLsb' 0 10
  color    := w 6
  shmode   := (w 7).extractLsb' 0 2
  mirrorX  := (w 7).getLsbD 2
  mirrorY  := (w 7).getLsbD 3

/-- The attribute block `BLK = COLOR[15:14]` of a record (R159). -/
def recordBlk (r : SpriteRecord) : Fin 4 := (r.color.extractLsb' 14 2).toFin

/-- The variant of a record, `keep = SHMODE[1]` and `detect = SHMODE[0] & SPR_CTRL.SDET` (R146). -/
def recordTdv (regs : Regs) (r : SpriteRecord) : Tdv :=
  { keep := r.shmode.getLsbD 1, detect := r.shmode.getLsbD 0 && sprSdet regs }

/-! ### Tables, capabilities and the layer port (R9, R63, R226) -/

/-- The value of a table at an index. -/
def tableGet {α : Type} (t : Table α) (k : Nat) : α := (List.lookup k t.cells).getD t.fill

/-- `TileFetch(id, u, v)`: the decoded pixel index of texel column u and row v of tile id (R63). -/
def tileFetch (c : Installation) (id : Word) (u v : Nat) : Byte :=
  tableGet c.tileRom (256 * id.toNat + 16 * v + u)

/-- `ColorWire(raw)`: (paletteBase, attr) of the raw color code (R9). -/
def colorWire (c : Installation) (raw : Word) : Pixel := tableGet c.colorWiring raw.toNat

/-- The host's table for layer L (R37, R226); layer 4 is the sprite planes and has none. -/
def layerTable (p : LayerInputs) (l : Fin 8) : Option (Table Pixel) :=
  match l with
  | 0 => some p.gen1
  | 1 => some p.gen2
  | 2 => some p.gen3
  | 3 => some p.gen4
  | 4 => none
  | 5 => some p.aux1
  | 6 => some p.aux2
  | 7 => some p.aux3

/-- The index of screen coordinate (sx, sy) in a table of the layer port. -/
def screenKey (sx sy : Nat) : Nat := 1024 * sy + sx

end Sys2Proof.Machine
end

