-- ==== Sys2Proof/Machine/Ops.lean ====
section
/-! DEFINITION. The named operations on the state: the word memories SNAP and the planes (spec/20_memory.md),
register reads and writes with the shadow-table recompute (spec/10_state.md R21, R42), the configuration error
(spec/60_exceptions.md R251) and the start of a pass (spec/44_host_commands.md R227). -/

namespace Sys2Proof.Machine

/-! ### Word memories -/

/-- The word listed at an index. -/
def memLookup (m : WordMem) (k : Nat) : Option Word :=
  match m with
  | [] => none
  | (a, v) :: rest => if a = k then some v else memLookup rest k

/-- The memory with `v` listed at `k`, in its place among rising indices. -/
def memInsert (m : WordMem) (k : Nat) (v : Word) : WordMem :=
  match m with
  | [] => [(k, v)]
  | (a, w) :: rest =>
    if k < a then (k, v) :: (a, w) :: rest
    else if k = a then (k, v) :: rest
    else (a, w) :: memInsert rest k v

/-- The memory with nothing listed at `k`. -/
def memErase (m : WordMem) (k : Nat) : WordMem :=
  match m with
  | [] => []
  | (a, w) :: rest => if a = k then memErase rest k else (a, w) :: memErase rest k

/-- Whether the listed indices rise strictly. -/
def memRising : WordMem → Bool
  | [] => true
  | [_] => true
  | (a, _) :: (b, w) :: rest => decide (a < b) && memRising ((b, w) :: rest)

/-! ### SNAP (R38) -/

/-- `SnapRead(a)`: the word written last, or the unspecified value since the last reset (R228, R281). -/
def snapRead (s : State) (a : Nat) : Word :=
  (memLookup s.snap a).getD (Config.snapAfterReset s.resets a)

/-- `SnapWrite(a, v)` (R221). -/
def snapWrite (s : State) (a : Nat) (v : Word) : State := { s with snap := memInsert s.snap a v }

/-! ### Planes (R39, R40) -/

/-- The index of plane element (x, y). -/
def planeKey (x y : Nat) : Nat := 1024 * y + x

/-- `PlaneRead(P, x, y)`: an unlisted element is 0x0000, the value of R41 and R140. -/
def planeRead (p : WordMem) (x y : Nat) : Word := (memLookup p (planeKey x y)).getD 0

/-- `PlaneWrite(P, x, y, v)`: 0x0000 is stored by listing nothing, so that equal planes are equal data. -/
def planeWrite (p : WordMem) (x y : Nat) (v : Word) : WordMem :=
  if v = 0 then memErase p (planeKey x y) else memInsert p (planeKey x y) v

/-- The elements (x, y) of a `w` by `h` plane, row by row. -/
def planeElements (w h : Nat) : List (Nat × Nat) :=
  (List.range h).flatMap fun y => (List.range w).map fun x => (x, y)

/-- The `w` by `h` plane whose element (x, y) is `f x y`. -/
def planeOf (w h : Nat) (f : Nat → Nat → Word) : WordMem :=
  (planeElements w h).filterMap fun e =>
    if f e.1 e.2 = 0 then none else some (planeKey e.1 e.2, f e.1 e.2)

/-- Whether (x, y) is an element of the allocated planes (R39). -/
def inPlanes (s : State) (x y : Nat) : Bool := decide (x < s.allocW) && decide (y < s.allocH)

/-- Whether a plane of the allocated size is in canonical form: indices strictly rising, every listed element in
the plane and none of them 0x0000. -/
def planeWf (w h : Nat) (p : WordMem) : Bool :=
  memRising p && p.all fun e => decide (e.1 % 1024 < w) && decide (e.1 / 1024 < h) && decide (e.2 ≠ 0)

/-- The canonical form of the memories: SNAP lists rising word addresses below 2048 (R38), the planes are in
canonical form at the allocated size (R39, R40). -/
def Memory.wf (s : State) : Bool :=
  (memRising s.snap && s.snap.all fun e => decide (e.1 < 2048)) &&
  planeWf s.allocW s.allocH s.sprC && planeWf s.allocW s.allocH s.sprA &&
  planeWf s.allocW s.allocH s.frC && planeWf s.allocW s.allocH s.frA &&
  planeWf s.allocW s.allocH s.bkC && planeWf s.allocW s.allocH s.bkA

/-! ### Shadow value tables (R192) -/

/-- `ShadowBit(mode, T, i)` (R192). -/
def shadowBit (mode : BitVec 2) (t i : Byte) : Bool :=
  match mode.toNat with
  | 0 => false
  | 1 => decide (t ≤ i)
  | 2 => decide (i = t)
  | _ => decide (i ≤ t)

/-- `ComputeSHT(n)` for a value of SHD_CTRL(n): its 256 entries (R192). -/
def computeSht (shdCtrl : Word) : List Bool :=
  (List.range 256).map fun i => shadowBit (shdMode shdCtrl) (shdThr shdCtrl) (BitVec.ofNat 8 i)

/-- `SHT[n][i]` (R42). -/
def shtEntry (s : State) (n : Fin 3) (i : Byte) : Bool := s.sht[n].getD i.toNat false

/-! ### Registers (R21) -/

/-- `RegRead(a)`: an unmapped address reads 0x0000 (R21, R224). -/
def regRead (s : State) (a : Addr) : Word :=
  match regOfAddr a with
  | some r => regGet s.regs r
  | none => 0

/-- The state with register `r` holding `v`, the shadow table recomputed where it is SHD_CTRL(n) (R42, R223). -/
def regStore (s : State) (r : Reg) (v : Word) : State :=
  match r with
  | .shdCtrl n => { s with regs := regSet s.regs v r, sht := s.sht.set n (computeSht v) }
  | _ => { s with regs := regSet s.regs v r }

/-- `RegWrite(a, v)`: an RW register stores `v & FIELDMASK`; a write to an RO register or to an unmapped address
has no effect (R21, R223). -/
def regWrite (s : State) (a : Addr) (v : Word) : State :=
  match regOfAddr a with
  | some r => if regWritable r then regStore s r (v &&& fieldMask r) else s
  | none => s

/-! ### Responses and configuration errors (R80, R251) -/

/-- The state with the command's response on the port (R80). -/
def respond (s : State) (v : Word) : State := { s with response := v }

/-- `raise ConfigError(S)`, the only exception of ZSC: STATUS takes the bits of the causes, the command has no
other effect and answers 0x0000; nothing is saved, no control is transferred and there is no return from it
(R251, R261). -/
def raiseConfigError (s : State) (c : Causes) : State :=
  respond { s with regs := { s.regs with status := statusAfter s.regs.status c } } 0

/-! ### The start of a pass (R227) -/

/-- `RectValid()` (R227, R30). -/
def rectValid (s : State) : Bool :=
  decide (visMinX s.regs ≤ visMaxX s.regs) && decide (visMinY s.regs ≤ visMaxY s.regs) &&
  decide (rectW s.regs ≤ s.cfg.maxW) && decide (rectH s.regs ≤ s.cfg.maxH)

/-- The state with all six planes allocated at `w` by `h`, every element 0x0000 (R41). -/
def reallocate (s : State) (w h : Nat) : State :=
  { s with allocW := w, allocH := h, sprC := [], sprA := [], frC := [], frA := [], bkC := [], bkA := [] }

/-- `PassStart()`: the planes are reallocated where the rectangle's size is not the allocated size (R227). -/
def passStart (s : State) : State :=
  if rectW s.regs = s.allocW ∧ rectH s.regs = s.allocH then s
  else reallocate s (rectW s.regs) (rectH s.regs)

/-! ### Output (R229) -/

/-- The six planes (R39, R40). -/
inductive PlaneId where
  | sprC | sprA | frC | frA | bkC | bkA
deriving DecidableEq, Repr

/-- A plane of the state. -/
def planeById (s : State) : PlaneId → WordMem
  | .sprC => s.sprC
  | .sprA => s.sprA
  | .frC => s.frC
  | .frA => s.frA
  | .bkC => s.bkC
  | .bkA => s.bkA

/-- What the host reads of a plane between commands (R229): an element of the plane, none outside it. -/
def hostRead (s : State) (p : PlaneId) (x y : Nat) : Option Word :=
  if inPlanes s x y then some (planeRead (planeById s p) x y) else none

end Sys2Proof.Machine
end

