-- ==== Sys2Proof/Machine/TileDraw.lean ====
section
/-! DEFINITION. The four tile-draw variants (spec/42_sprite_compositor.md R148-R154): what each makes of one plane
element, and each as an instruction of its own on the sprite planes. -/

namespace Sys2Proof.Machine

/-- An index is opaque for a block iff it meets the block's TMASK (R148). -/
def opaqueIndex (r : Regs) (p : PixelArgs) : Bool := decide (p.idx &&& blkTmask r p.blk ≠ 0)

/-- An index is a shadow pixel iff it is the top code of the active depth (R149). -/
def shadowIndex (p : PixelArgs) : Bool := decide (p.idx = p.pm)

/-- The color of an opaque pixel, `(pal + idx) mod 65536` (R148, R89). -/
def opaqueColor (p : PixelArgs) : Word := p.pal + p.idx.setWidth 16

/-- Keep-existing-bits: the old attribute with the KEEP bits of the new one (R150). -/
def keepAttr (r : Regs) (old new : Word) : Word := old ||| (new &&& keepMask r)

/-- TD_FORCE_PLAIN on an element whose attribute is `old` (R151): its new value, none where it is untouched. -/
def pixelForcePlain (r : Regs) (p : PixelArgs) (_old : Word) : Option Pixel :=
  if opaqueIndex r p then some ⟨opaqueColor p, p.wattr⟩ else none

/-- TD_FORCE_SHADOW on an element (R152): the shadow test comes before the opacity test (R149). -/
def pixelForceShadow (r : Regs) (p : PixelArgs) (_old : Word) : Option Pixel :=
  if shadowIndex p then some ⟨p.pal, blkSattr r p.blk⟩
  else if opaqueIndex r p then some ⟨opaqueColor p, p.wattr⟩
  else none

/-- TD_KEEP_PLAIN on an element (R153). -/
def pixelKeepPlain (r : Regs) (p : PixelArgs) (old : Word) : Option Pixel :=
  if opaqueIndex r p then some ⟨opaqueColor p, keepAttr r old p.wattr⟩ else none

/-- TD_KEEP_SHADOW on an element (R154). -/
def pixelKeepShadow (r : Regs) (p : PixelArgs) (old : Word) : Option Pixel :=
  if shadowIndex p then some ⟨p.pal, keepAttr r old (blkSattr r p.blk)⟩
  else if opaqueIndex r p then some ⟨opaqueColor p, keepAttr r old p.wattr⟩
  else none

/-- `PixelOp_tdv`: the variant of a TDV code (R90, R147). -/
def pixelOp (t : Tdv) (r : Regs) (p : PixelArgs) (old : Word) : Option Pixel :=
  match t with
  | ⟨false, false⟩ => pixelForcePlain r p old
  | ⟨false, true⟩ => pixelForceShadow r p old
  | ⟨true, false⟩ => pixelKeepPlain r p old
  | ⟨true, true⟩ => pixelKeepShadow r p old

/-- The sprite planes with element (x, y) holding a pixel. -/
def paintElement (s : State) (x y : Nat) (v : Pixel) : State :=
  { s with sprC := planeWrite s.sprC x y v.color, sprA := planeWrite s.sprA x y v.attr }

/-- A pixel operation's result at element (x, y): none leaves both planes untouched, a pixel is written where the
element exists; an element outside the allocated planes does not exist (R39, R61). -/
def finishPixel (s : State) (x y : Nat) (v : Option Pixel) : Host.Outcome State Fault Refusal :=
  match v with
  | none => .next s
  | some px => if inPlanes s x y then .next (paintElement s x y px) else .fault .planeElementAbsent

/-- TD_FORCE_PLAIN (R151). -/
def execTdForcePlain (p : PixelArgs) (s : State) : Host.Outcome State Fault Refusal :=
  finishPixel s p.x p.y (pixelForcePlain s.regs p (planeRead s.sprA p.x p.y))

/-- TD_FORCE_SHADOW (R152). -/
def execTdForceShadow (p : PixelArgs) (s : State) : Host.Outcome State Fault Refusal :=
  finishPixel s p.x p.y (pixelForceShadow s.regs p (planeRead s.sprA p.x p.y))

/-- TD_KEEP_PLAIN (R153). -/
def execTdKeepPlain (p : PixelArgs) (s : State) : Host.Outcome State Fault Refusal :=
  finishPixel s p.x p.y (pixelKeepPlain s.regs p (planeRead s.sprA p.x p.y))

/-- TD_KEEP_SHADOW (R154). -/
def execTdKeepShadow (p : PixelArgs) (s : State) : Host.Outcome State Fault Refusal :=
  finishPixel s p.x p.y (pixelKeepShadow s.regs p (planeRead s.sprA p.x p.y))

end Sys2Proof.Machine
end

