-- ==== Sys2Proof/Machine/TileLayout.lean ====
section
/-! DEFINITION. The Tile Layout Generator (spec/41_tile_layout.md): a pure function from one axis of a sprite to
its segments, found by stepping over the scan range. -/

namespace Sys2Proof.Machine

/-- A segment (R111): the inclusive run of screen pixels, the tile-local texel position of its first pixel, the
signed texel step per pixel and the tile-id offset. -/
structure Segment where
  screenMin   : Nat
  screenMax   : Nat
  texelStart  : Int
  texelStep   : Int
  tileIdDelta : Word
deriving DecidableEq, Repr

/-- The three texel-addressing regimes (R117, R94). -/
inductive Regime where
  | forward
  | reversed
  | mirrored
deriving DecidableEq, Repr

/-- What a sampling pixel samples: the texel position t, its step, and which half of regime M it is in. -/
structure Sample where
  t    : Int
  step : Int
  half : Nat
deriving DecidableEq, Repr

/-- One axis of a sprite after global flip: center, geometry, zoom and regime (R113, R115, R117). -/
structure Axis where
  center : Coord
  size   : BitVec 2
  zoom   : Coord
  regime : Regime
  delta  : Vector Word 8
deriving DecidableEq, Repr

/-- The regime: mirror wins, then flip, else forward (R117). -/
def regimeOf (flip mirror : Bool) : Regime :=
  if mirror then .mirrored else if flip then .reversed else .forward

/-- Global flip first (R113): the center is reflected at FLIP_PIVOT mod 1024 and flip inverted; mirror stays. -/
def axisOf (pivot center : Coord) (size : BitVec 2) (zoom : Coord) (delta : Vector Word 8)
    (flip mirror gflip : Bool) : Axis where
  center := if gflip then pivot - center else center
  size   := size
  zoom   := zoom
  regime := regimeOf (if gflip then !flip else flip) mirror
  delta  := delta

/-- `Wfx = W << 6` with `W = 16 << size` (R115). -/
def widthFx (size : BitVec 2) : Int := ((16 <<< size.toNat) <<< 6 : Nat)

/-- `Cfx = W << 5` (R115). -/
def centerFx (size : BitVec 2) : Int := ((16 <<< size.toNat) <<< 5 : Nat)

/-- `k(p)`, the offset from the anchor congruent to `p - center` mod 1024 in -512..511 (R116). -/
def offsetOf (center : Coord) (p : Nat) : Int := ((p : Int) - (center.toNat : Int) + 512) % 1024 - 512

/-- What offset k samples, none where its pixel does not sample (R118, R119, R120). -/
def sampleAt (a : Axis) (k : Int) : Option Sample :=
  let zoom : Int := a.zoom.toNat
  let fwd : Int := centerFx a.size + k * zoom
  let rev : Int := centerFx a.size - 1 - k * zoom
  match a.regime with
  | .forward => if 0 ≤ fwd ∧ fwd < widthFx a.size then some ⟨fwd, zoom, 0⟩ else none
  | .reversed => if 0 ≤ rev ∧ rev < widthFx a.size then some ⟨rev, -zoom, 0⟩ else none
  | .mirrored =>
    if k < 0 then (if 0 ≤ fwd then some ⟨fwd, zoom, 0⟩ else none)
    else (if 0 ≤ rev then some ⟨rev, -zoom, 1⟩ else none)

/-- The segment being built, with its hidden fields (R121). -/
structure OpenSegment where
  seg   : Segment
  tile  : Nat
  half  : Nat
  lastK : Int
deriving DecidableEq, Repr

/-- The source tile index of a texel position, `tile = t >> 10` (R121). -/
def tileOf (t : Int) : Nat := (t / 1024).toNat

/-- A segment opened at pixel p (R121). -/
def openAt (a : Axis) (p : Nat) (k : Int) (m : Sample) : OpenSegment where
  seg :=
    { screenMin := p, screenMax := p, texelStart := m.t - 1024 * tileOf m.t, texelStep := m.step,
      tileIdDelta := a.delta.toList.getD (tileOf m.t) 0 }
  tile  := tileOf m.t
  half  := m.half
  lastK := k

/-- Whether the next sampling pixel extends the open segment: no wrap, same tile, same half (R121). -/
def extendsSegment (o : OpenSegment) (k : Int) (m : Sample) : Bool :=
  decide (k = o.lastK + 1) && decide (tileOf m.t = o.tile) && decide (m.half = o.half)

/-- The open segment, closed (R121). -/
def closeSegment : Option OpenSegment → List Segment
  | none => []
  | some o => [o.seg]

/-- The loop of R121 over the pixels of the scan range still to visit; the result lists the segments closed from
here on, in order. -/
def scanSegments (a : Axis) : List Nat → Option OpenSegment → List Segment
  | [], o => closeSegment o
  | p :: ps, o =>
    let k := offsetOf a.center p
    match sampleAt a k, o with
    | none, o => closeSegment o ++ scanSegments a ps none
    | some m, none => scanSegments a ps (some (openAt a p k m))
    | some m, some op =>
      if extendsSegment op k m then
        scanSegments a ps (some { op with seg := { op.seg with screenMax := p }, lastK := k })
      else op.seg :: scanSegments a ps (some (openAt a p k m))

/-- The pixels scanMin, scanMin + 1, ..., scanMax, none where scanMin is above scanMax (R12). -/
def scanRange (scanMin scanMax : Coord) : List Nat :=
  List.range' scanMin.toNat (scanMax.toNat + 1 - scanMin.toNat)

/-- `TLG(scanMin, scanMax, center, size, zoom, delta, flip, mirror, gflip)` with parameter FLIP_PIVOT (R110-R121);
zoom 0 or an inverted scan range gives the empty list (R114). -/
def tlg (pivot scanMin scanMax center : Coord) (size : BitVec 2) (zoom : Coord) (delta : Vector Word 8)
    (flip mirror gflip : Bool) : List Segment :=
  if zoom = 0 ∨ scanMax < scanMin then []
  else scanSegments (axisOf pivot center size zoom delta flip mirror gflip) (scanRange scanMin scanMax) none

/-- The screen pixels of a segment, in order (R147). -/
def segmentPixels (g : Segment) : List Nat := List.range' g.screenMin (g.screenMax + 1 - g.screenMin)

/-- The tile-local texel that pixel p of a segment samples (R111, R147). -/
def segmentTexel (g : Segment) (p : Nat) : Nat :=
  ((g.texelStart + ((p : Int) - (g.screenMin : Int)) * g.texelStep) / 64).toNat

end Sys2Proof.Machine
end

