-- ==== Sys2Proof/Machine/Compositor.lean ====
section
/-! DEFINITION. The Sprite Compositor, the body of COMPOSE (spec/42_sprite_compositor.md R140-R147): bucketing,
drawing one sprite through the Tile Layout Generator and the tile-draw variants, and the pass. -/

namespace Sys2Proof.Machine

/-- `Decode(i)` of snapshot record i, the words SNAP[8i .. 8i+7] (R87, R38). -/
def decodeRecord (s : State) (i : Byte) : SpriteRecord :=
  recordOfWords fun j => snapRead s (8 * i.toNat + j)

/-! ### Bucketing (R141, R142) -/

/-- The bucket table of a pass: 256 buckets, each empty or holding a record index (R44). -/
abbrev Buckets := List (Option Byte)

/-- The bucket of a record, `PRIORITY ^ (PINV ? 0xFF : 0x00)` (R141). -/
def bucketOf (regs : Regs) (r : SpriteRecord) : Byte :=
  r.priority ^^^ (if sprPinv regs then 0xFF else 0x00)

/-- The record in a bucket. -/
def bucketGet (t : Buckets) (b : Byte) : Option Byte := (t.getD b.toNat none)

/-- A collision at bucket b: the count rises and one event is appended to DIAG, nothing else (R142, R258). -/
def collide (s : State) (b old new : Byte) : State :=
  { s with
    regs := { s.regs with sprCollisions := countUp s.regs.sprCollisions }
    diag := s.diag ++ [⟨b, old, new⟩] }

/-- One turn of the loop of R141: record i takes its bucket, colliding with a record already there. -/
def bucketRecord (ts : Buckets × State) (i : Byte) : Buckets × State :=
  let r := decodeRecord ts.2 i
  if r.active then
    let b := bucketOf ts.2.regs r
    (ts.1.set b.toNat (some i),
      match bucketGet ts.1 b with
      | some old => collide ts.2 b old i
      | none => ts.2)
  else ts

/-- The 256 record indices in memory order (R38). -/
def recordIndices : List Byte := (List.range 256).map (BitVec.ofNat 8)

/-- `Bucketing()` from the empty bucket table (R141). -/
def bucketing (s : State) : Buckets × State :=
  recordIndices.foldl bucketRecord (List.replicate 256 none, s)

/-! ### Drawing (R143-R147) -/

/-- The sprite planes while a pass draws into them. -/
structure SpritePlanes where
  color : WordMem
  attr  : WordMem
deriving DecidableEq, Repr

/-- `PixelOp_tdv` on the sprite planes (R147): an untouched element stays, otherwise both planes take the pixel. -/
def drawPixel (t : Tdv) (regs : Regs) (p : PixelArgs) (pl : SpritePlanes) : SpritePlanes :=
  match pixelOp t regs p (planeRead pl.attr p.x p.y) with
  | none => pl
  | some v => ⟨planeWrite pl.color p.x p.y v.color, planeWrite pl.attr p.x p.y v.attr⟩

/-- What a sprite draws with: its variant, tile id base, wire output and block (R143). -/
structure SpritePaint where
  tdv      : Tdv
  tileBase : Word
  wire     : Pixel
  blk      : Fin 4
deriving DecidableEq, Repr

/-- The operands of the pixel operation at screen pixel (px, py) of the segment pair (X, Y) (R147). -/
def pixelArgsAt (s : State) (k : SpritePaint) (gx gy : Segment) (px py : Nat) : PixelArgs :=
  let pm := penMask (depthOf (sprBpp s.regs))
  let id := k.tileBase + gx.tileIdDelta + gy.tileIdDelta
  { x     := px - (visMinX s.regs).toNat
    y     := py - (visMinY s.regs).toNat
    idx   := tileFetch s.cfg id (segmentTexel gx px) (segmentTexel gy py) &&& pm
    pm    := pm
    pal   := k.wire.color
    wattr := k.wire.attr
    blk   := k.blk }

/-- `TileDraw(tdv, id, X, Y, pal, wattr, blk)`: every pixel of the pair, row by row (R147). -/
def tileDraw (s : State) (k : SpritePaint) (gx gy : Segment) (pl : SpritePlanes) : SpritePlanes :=
  (segmentPixels gy).foldl (fun pl py =>
    (segmentPixels gx).foldl (fun pl px => drawPixel k.tdv s.regs (pixelArgsAt s k gx gy px py) pl) pl) pl

/-- `WriteProtected(blk)` (R144). -/
def writeProtected (regs : Regs) (b : Fin 4) : Bool := blkWp regs b && sprWrap regs

/-- The X segments of a record: the scroll is subtracted before the TLG's global flip (R143). -/
def recordSegmentsX (s : State) (r : SpriteRecord) : List Segment :=
  tlg s.cfg.flipPivot (visMinX s.regs) (visMaxX s.regs) (r.posX - scrollX s.regs) r.sizeX r.zoomX
    s.cfg.tileDeltaX r.flipX r.mirrorX (sprGflipX s.regs)

/-- The Y segments of a record (R143). -/
def recordSegmentsY (s : State) (r : SpriteRecord) : List Segment :=
  tlg s.cfg.flipPivot (visMinY s.regs) (visMaxY s.regs) (r.posY - scrollY s.regs) r.sizeY r.zoomY
    s.cfg.tileDeltaY r.flipY r.mirrorY (sprGflipY s.regs)

/-- What record r draws with (R143, R146, R159). -/
def paintOf (s : State) (r : SpriteRecord) : SpritePaint where
  tdv      := recordTdv s.regs r
  tileBase := r.tileBase
  wire     := colorWire s.cfg r.color
  blk      := recordBlk r

/-- `DrawSprite(r)`: nothing where the block is write protected, else every pair of a Y segment and an X segment, in
order (R143, R144). -/
def drawSprite (s : State) (r : SpriteRecord) (pl : SpritePlanes) : SpritePlanes :=
  if writeProtected s.regs (recordBlk r) then pl
  else (recordSegmentsY s r).foldl (fun pl gy =>
    (recordSegmentsX s r).foldl (fun pl gx => tileDraw s (paintOf s r) gx gy pl) pl) pl

/-- The draw of one bucket: its record, if it holds one (R140). -/
def drawBucket (s : State) (pl : SpritePlanes) (o : Option Byte) : SpritePlanes :=
  match o with
  | none => pl
  | some i => drawSprite s (decodeRecord s i) pl

/-- `ComposePass()` (R140): the sprite planes and the count are cleared, the active records bucketed, and the
buckets drawn in ascending order. -/
def composePass (s : State) : State :=
  let ts := bucketing { s with regs := { s.regs with sprCollisions := 0 } }
  let pl := ts.1.foldl (drawBucket ts.2) ⟨[], []⟩
  { ts.2 with sprC := pl.color, sprA := pl.attr }

end Sys2Proof.Machine
end

