-- ==== Sys2Proof/Machine/Mixer.lean ====
section
/-! DEFINITION. The Layer Priority Mixer, the body of MIX (spec/43_priority_mixer.md R180-R191). -/

namespace Sys2Proof.Machine

/-- A candidate of one pixel (R181): its color, attribute and key, and, but for the background, the layer it comes
from with that layer's effective priority. -/
structure Candidate where
  color  : Word
  attr   : Word
  key    : Nat
  source : Option (Fin 8 × Byte)
deriving DecidableEq, Repr

/-- The bit depth of layer L, `bppL = 4 + min(BPP, 4)` (R35). -/
def layerDepth (r : Regs) (l : Fin 8) : Nat := depthOf (lyrBpp r l)

/-- `Visible(L, c, a)`: displayed, and pen bits or the shadow flag set (R182). -/
def layerVisible (r : Regs) (l : Fin 8) (v : Pixel) : Bool :=
  lyrDisp r l &&
    (decide (v.color &&& (penMask (layerDepth r l)).setWidth 16 ≠ 0) || attrSh v.attr)

/-- The compare value of a color, the 8 bits above the pen bits (R183, R89). -/
def compareValue (r : Regs) (l : Fin 8) (c : Word) : Byte := (c >>> layerDepth r l).setWidth 8

/-- `Effective(L, c)`: the alternate priority where layer 0 or 1 has its override enabled and exceeded (R183). -/
def effectivePriority (r : Regs) (l : Fin 8) (c : Word) : Byte :=
  if l.val < 2 ∧ lyrOvrEn r l ∧ lyrOvrThr r l < compareValue r l c then lyrAlt r l else lyrPri r l

/-- `Key(L, eff) = ((eff ^ inv) << 3) | L` (R184). -/
def layerKey (r : Regs) (l : Fin 8) (eff : Byte) : Nat :=
  ((eff ^^^ (if mixPinv r then 0xFF else 0x00)).toNat <<< 3) ||| l.val

/-- `MaskAttr(L, a)`: BRIGHT under BMASK, MIXEN under MMASK, the other bits unchanged (R187). -/
def maskAttr (r : Regs) (l : Fin 8) (a : Word) : Word :=
  (a &&& 0xFC00) ||| (a &&& (lyrBmask r l).setWidth 16) ||| (a &&& ((lyrMmask r l).setWidth 16 <<< 8))

/-- `LayerColor(L, c) = (c + (BANK << 8)) mod 65536` (R188). -/
def layerColor (r : Regs) (l : Fin 8) (c : Word) : Word := c + ((lyrBank r l).setWidth 16 <<< 8)

/-- The background candidate: key 2048, no layer (R185). -/
def background (v : Pixel) : Candidate := { color := v.color, attr := v.attr, key := 2048, source := none }

/-- The candidate of a visible layer pixel (R181). -/
def layerCandidate (r : Regs) (l : Fin 8) (v : Pixel) : Candidate :=
  let eff := effectivePriority r l v.color
  { color := layerColor r l v.color, attr := maskAttr r l v.attr, key := layerKey r l eff, source := some (l, eff) }

/-- `Insert(cand)` into the pair (front, back) (R186). -/
def insertCandidate (fb : Candidate × Candidate) (c : Candidate) : Candidate × Candidate :=
  if c.key < fb.1.key then (c, fb.1)
  else if c.key < fb.2.key then (fb.1, c)
  else fb

/-- The shadow table of an attribute's group; group 3 is none (R88, R190). -/
def shadowGroup (a : Word) : Option (Fin 3) :=
  match (attrSg a).toNat with
  | 0 => some 0
  | 1 => some 1
  | 2 => some 2
  | _ => none

/-- `ApplyShadow(X)`: SH is toggled by the table entry at the effective priority, for an eligible attribute of a
layer with SHEN; the background is never shadowed (R190, R191). -/
def applyShadow (s : State) (c : Candidate) : Pixel :=
  match c.source, shadowGroup c.attr with
  | some (l, pri), some g =>
    if lyrShen s.regs l && attrSe c.attr && shtEntry s g pri then ⟨c.color, c.attr ^^^ 0x1000⟩
    else ⟨c.color, c.attr⟩
  | _, _ => ⟨c.color, c.attr⟩

/-- The pixel of layer L at element (x, y) and screen coordinate (sx, sy): the sprite planes for L = 4, the layer port
otherwise (R181, R37). -/
def layerPixel (s : State) (l : Fin 8) (x y sx sy : Nat) : Pixel :=
  match layerTable s.layers l with
  | some t => tableGet t (screenKey sx sy)
  | none => ⟨planeRead s.sprC x y, planeRead s.sprA x y⟩

/-- The layers in their fixed evaluation order (R189, R37). -/
def layerOrder : List (Fin 8) := [0, 1, 2, 3, 4, 5, 6, 7]

/-- The loop body of R181 for one layer. -/
def mixLayer (s : State) (x y sx sy : Nat) (fb : Candidate × Candidate) (l : Fin 8) : Candidate × Candidate :=
  let v := layerPixel s l x y sx sy
  if layerVisible s.regs l v then insertCandidate fb (layerCandidate s.regs l v) else fb

/-- The pair of candidates after all layers, the background in both slots first (R181, R185). -/
def mixCandidates (s : State) (x y sx sy : Nat) : Candidate × Candidate :=
  let bg := background (tableGet s.layers.bg (screenKey sx sy))
  layerOrder.foldl (mixLayer s x y sx sy) (bg, bg)

/-- `MixPixel`: (front, back) at element (x, y), whose screen coordinate is (VIS_MINX + x, VIS_MINY + y) (R180, R181). -/
def mixPixel (s : State) (x y : Nat) : Pixel × Pixel :=
  let fb := mixCandidates s x y ((visMinX s.regs).toNat + x) ((visMinY s.regs).toNat + y)
  (applyShadow s fb.1, applyShadow s fb.2)

/-- `MixPass()`: every element of the four output planes is written (R180). -/
def mixPass (s : State) : State :=
  { s with
    frC := planeOf s.allocW s.allocH fun x y => (mixPixel s x y).1.color
    frA := planeOf s.allocW s.allocH fun x y => (mixPixel s x y).1.attr
    bkC := planeOf s.allocW s.allocH fun x y => (mixPixel s x y).2.color
    bkA := planeOf s.allocW s.allocH fun x y => (mixPixel s x y).2.attr }

end Sys2Proof.Machine
end

