-- ==== Sys2Proof/Machine/HostCommands.lean ====
section
/-! DEFINITION. The meanings of the seven host commands (spec/44_host_commands.md R221-R228). Every command
completes with a next state: a configuration error is one too (R220, R251). -/

namespace Sys2Proof.Machine

/-- The state RESET leaves, its response not yet given (R222, R48): registers, tables, DIAG and allocation as after
power-on, SNAP unspecified anew (R281); the installation and the ports are not ZSC's to reset (R282). -/
def resetState (s : State) : State :=
  { s with
    regs   := Regs.zero
    snap   := []
    resets := s.resets + 1
    sprC   := []
    sprA   := []
    frC    := []
    frA    := []
    bkC    := []
    bkA    := []
    allocW := 0
    allocH := 0
    sht    := Vector.replicate 3 (computeSht 0)
    diag   := [] }

/-- RESET (R222). -/
def execReset (s : State) : Host.Outcome State Fault Refusal := .next (respond (resetState s) 0)

/-- REG_WR (R223). -/
def execRegWr (addr : Addr) (data : Word) (s : State) : Host.Outcome State Fault Refusal :=
  .next (respond (regWrite s addr data) 0)

/-- REG_RD (R224). -/
def execRegRd (addr : Addr) (s : State) : Host.Outcome State Fault Refusal :=
  .next (respond s (regRead s addr))

/-- SNAP_WR (R221). -/
def execSnapWr (addr : Addr) (data : Word) (s : State) : Host.Outcome State Fault Refusal :=
  .next (respond (snapWrite s addr.toNat data) 0)

/-- SNAP_RD (R228). -/
def execSnapRd (addr : Addr) (s : State) : Host.Outcome State Fault Refusal :=
  .next (respond s (snapRead s addr.toNat))

/-- The causes that stop a COMPOSE (R225, R253, R254). -/
def composeErrors (s : State) : Causes where
  eCmd  := false
  eRect := !rectValid s
  eTile := !s.cfg.tileRomPresent

/-- COMPOSE (R225): both errors are raised together, and nothing else changes; otherwise the pass runs. -/
def execCompose (s : State) : Host.Outcome State Fault Refusal :=
  .next (if causesAny (composeErrors s) then raiseConfigError s (composeErrors s)
    else respond (composePass (passStart s)) 0)

/-- The causes that stop a MIX (R226, R253, R254). -/
def mixErrors (s : State) : Causes where
  eCmd  := false
  eRect := !rectValid s
  eTile := false

/-- MIX (R226). -/
def execMix (s : State) : Host.Outcome State Fault Refusal :=
  .next (if causesAny (mixErrors s) then raiseConfigError s (mixErrors s)
    else respond (mixPass (passStart s)) 0)

end Sys2Proof.Machine
end

