-- ==== Sys2Proof/Machine/Dispatch.lean ====
section
/-! DEFINITION. One arm per instruction of spec/opcode_table.json. -/

namespace Sys2Proof.Machine

def exec (i : Instr) (s : State) : Host.Outcome State Fault Refusal :=
  match i with
  | .reset => Sys2Proof.Machine.execReset s
  | .regWr addr data => Sys2Proof.Machine.execRegWr addr data s
  | .regRd addr => Sys2Proof.Machine.execRegRd addr s
  | .snapWr addr data => Sys2Proof.Machine.execSnapWr addr data s
  | .snapRd addr => Sys2Proof.Machine.execSnapRd addr s
  | .compose => Sys2Proof.Machine.execCompose s
  | .mix => Sys2Proof.Machine.execMix s
  | .tdForcePlain p => Sys2Proof.Machine.execTdForcePlain p s
  | .tdForceShadow p => Sys2Proof.Machine.execTdForceShadow p s
  | .tdKeepPlain p => Sys2Proof.Machine.execTdKeepPlain p s
  | .tdKeepShadow p => Sys2Proof.Machine.execTdKeepShadow p s

end Sys2Proof.Machine
end

