-- ==== Sys2Proof/Decode.lean ====
section
/-! DEFINITION. The decoder of command words and of tile-draw variant codes, total on every bit pattern, and
the encoder (spec/30_encoding.md R80-R83, R90, R96). -/

namespace Sys2Proof

/-- Why a command word is rejected. -/
inductive DecodeError where
  /-- an OP value of R82: 0x00 or 0x08 to 0x1F -/
  | reservedOp (op : BitVec 5)
deriving DecidableEq, Repr

/-- OP = word[31:27] (R80). -/
def opField (w : CmdWord) : BitVec 5 := w.extractLsb' 27 5

/-- ADDR = word[26:16] (R80). -/
def addrField (w : CmdWord) : Addr := w.extractLsb' 16 11

/-- DATA = word[15:0] (R80). -/
def dataField (w : CmdWord) : Word := w.extractLsb' 0 16

/-- The command of a word, selected by OP alone; fields a command does not read are ignored (R81), reserved
OP values are rejected (R82). -/
def decodeCommand (w : CmdWord) : Except DecodeError Instr :=
  match (opField w).toNat with
  | 0x01 => .ok .reset
  | 0x02 => .ok (.regWr (addrField w) (dataField w))
  | 0x03 => .ok (.regRd (addrField w))
  | 0x04 => .ok (.snapWr (addrField w) (dataField w))
  | 0x05 => .ok (.snapRd (addrField w))
  | 0x06 => .ok .compose
  | 0x07 => .ok .mix
  | _ => .error (.reservedOp (opField w))

/-- The two choices of a TDV code, `TDV = {keep, detect}` (R90). -/
def tdvOfCode (c : BitVec 2) : Tdv := { keep := c.getLsbD 1, detect := c.getLsbD 0 }

/-- The 2-bit code `{keep, detect}` (R90). -/
def codeOfTdv (t : Tdv) : BitVec 2 := BitVec.ofBool t.keep ++ BitVec.ofBool t.detect

/-- The variant of a TDV code (the table of R90), with its operands. -/
def decodeTileDraw (it : PixelItem) : Instr :=
  match tdvOfCode it.code with
  | ⟨false, false⟩ => .tdForcePlain it.args
  | ⟨false, true⟩ => .tdForceShadow it.args
  | ⟨true, false⟩ => .tdKeepPlain it.args
  | ⟨true, true⟩ => .tdKeepShadow it.args

/-- The instruction of an encoding. -/
def decode : Encoded → Except DecodeError Instr
  | .command w => decodeCommand w
  | .tileDraw it => .ok (decodeTileDraw it)

/-- `{OP, ADDR, DATA}` (R80). -/
def commandWord (op : BitVec 5) (addr : Addr) (data : Word) : CmdWord := op ++ addr ++ data

/-- The encoding of an instruction: the word pattern of R81 with every ignored bit 0 (R84), or the TDV code
of R90 with the operands. -/
def encode : Instr → Encoded
  | .reset => .command (commandWord 0x01 0 0)
  | .regWr a d => .command (commandWord 0x02 a d)
  | .regRd a => .command (commandWord 0x03 a 0)
  | .snapWr a d => .command (commandWord 0x04 a d)
  | .snapRd a => .command (commandWord 0x05 a 0)
  | .compose => .command (commandWord 0x06 0 0)
  | .mix => .command (commandWord 0x07 0 0)
  | .tdForcePlain p => .tileDraw ⟨0b00#2, p⟩
  | .tdForceShadow p => .tileDraw ⟨0b01#2, p⟩
  | .tdKeepPlain p => .tileDraw ⟨0b10#2, p⟩
  | .tdKeepShadow p => .tileDraw ⟨0b11#2, p⟩

/-- The operands of a tile-draw variant of which only the TDV code is given: element (0, 0), index 0, the pen
mask of bit-depth code 0 (R92), palette base, attribute and block 0. -/
def zeroPixelArgs : PixelArgs := { x := 0, y := 0, idx := 0, pm := 0x0F, pal := 0, wattr := 0, blk := 0 }

/-- The item of a TDV2 row of the opcode table whose code is the low two bits of `w`. -/
def tableItem (w : Nat) : PixelItem := { code := BitVec.ofNat 2 w, args := zeroPixelArgs }

/-- Whether a row of `nbits` bits is a TDV2 row (its code fits one byte) rather than a 32-bit command (R80). -/
def isTileDrawRow (nbits : Nat) : Bool := decide (nbits ≤ 8)

/-- The instruction the decoder reads from the `nbits` bits `w` of a row of the opcode table. -/
def decodeTableWord (nbits w : Nat) : Option Instr :=
  if isTileDrawRow nbits then some (decodeTileDraw (tableItem w))
  else (decodeCommand (BitVec.ofNat 32 w)).toOption

end Sys2Proof
end

