-- ==== Sys2Proof/Machine/Fetch.lean ====
section
/-! DEFINITION. What the machine performs next: the command port of spec/44_host_commands.md R220, and the place of
a tile-draw variant performed as a step of its own (spec/30_encoding.md R96). ZSC has no program counter and
fetches nothing itself (spec/10_state.md R46). -/

namespace Sys2Proof.Machine

/-- What stands to be performed. -/
inductive Fetched where
  /-- nothing: the machine is idle between commands (R265) -/
  | idle
  /-- an instruction, in the state in which it runs -/
  | run (i : Instr) (s : State)
  /-- a command word with a reserved OP (R82), in the state in which it is performed -/
  | reserved (s : State)

/-- The state in which the host's next command is performed: the command is off the port and its pixel inputs are on
the layer port (R220). -/
def acceptCommand (s : State) (c : HostCommand) (rest : List HostCommand) : State :=
  { s with port := rest, layers := c.layers }

/-- What to perform next: a tile-draw variant in its slot, else the first command on the port. -/
def fetchNext (s : State) : Fetched :=
  match s.pixelSlot with
  | some it => .run (decodeTileDraw it) { s with pixelSlot := none }
  | none =>
    match s.port with
    | [] => .idle
    | c :: rest =>
      match decodeCommand c.word with
      | .ok i => .run i (acceptCommand s c rest)
      | .error _ => .reserved (acceptCommand s c rest)

/-- E_CMD: a reserved OP raises it alone (R252, R257). -/
def execReservedOp (s : State) : State := raiseConfigError s { eCmd := true, eRect := false, eTile := false }

/-- The state in which a row of the opcode table stands to be performed next: a TDV2 row in the tile-draw slot, a
command as the first one on the port, with the layer port as it is. -/
def placeTableWord (s : State) (nbits w : Nat) : State :=
  if isTileDrawRow nbits then { s with pixelSlot := some (tableItem w) }
  else { s with pixelSlot := none, port := ⟨BitVec.ofNat 32 w, s.layers⟩ :: s.port }

end Sys2Proof.Machine
end

