-- ==== Sys2Proof/Machine/Step.lean ====
section
/-! DEFINITION. One step: the whole of one command (spec/00_scope.md R14, spec/20_memory.md R66), or of one
tile-draw variant in its slot, or idling (spec/60_exceptions.md R265). -/

namespace Sys2Proof.Machine

/-- One step of the machine. -/
def step (s : State) : Host.Outcome State Fault Refusal :=
  match fetchNext s with
  | .idle => .next s
  | .run i t => exec i t
  | .reserved t => .next (execReservedOp t)

/-- `s` with a row of the opcode table standing to be performed by the very next step. -/
def State.withFetchWord (s : State) (nbits w : Nat) : State := placeTableWord s nbits w

end Sys2Proof.Machine
end

