-- ==== Sys2Proof/Safety.lean ====
section
/-! DEFINITION. What counts as a good run and a legal state, and the reference functions the statements compare the
machine with: the Tile Layout Generator one pixel at a time, bucket ownership without a bucket table, and the sprite
planes one element at a time. -/

namespace Sys2Proof.Machine

/-! ### Good runs and legal states -/

/-- The causes an instruction raises when performed in a state (R250, R253, R254); only a pass raises any. -/
def instrErrors (i : Instr) (s : State) : Causes :=
  match i with
  | .compose => composeErrors s
  | .mix => mixErrors s
  | .reset => {}
  | .regWr _ _ => {}
  | .regRd _ => {}
  | .snapWr _ _ => {}
  | .snapRd _ => {}
  | .tdForcePlain _ => {}
  | .tdForceShadow _ => {}
  | .tdKeepPlain _ => {}
  | .tdKeepShadow _ => {}

/-- The causes the next step raises (R250, R252). -/
def stepErrors (s : State) : Causes :=
  match fetchNext s with
  | .idle => {}
  | .run i t => instrErrors i t
  | .reserved _ => { eCmd := true }

/-- Whether the run of `k` steps from `s` ends in a good final state: every step completes, none raises an error (a run that sets
a STATUS bit is never good, whether or not a later RESET clears it), and STATUS is 0 at the end (R256). DEDUCED
(notes/assumptions/15.md): an error whose bit was already set counts as raised, a bit set before the run began is not the run's. -/
def goodFinal : Nat → State → Bool
  | 0, s => decide (s.regs.status = 0)
  | k + 1, s => !causesAny (stepErrors s) &&
    match step s with
    | .next t => goodFinal k t
    | .fault _ => false
    | .refused _ => false

/-- Every register holds field bits only: reserved bits read 0 (R21). -/
def regsMasked (r : Regs) : Prop := ∀ x : Reg, regGet r x &&& ~~~(fieldMask x) = 0

/-- Every shadow table is the one its SHD_CTRL(n) gives (R42). -/
def shtCoherent (s : State) : Prop := ∀ n : Fin 3, s.sht[n] = computeSht s.regs.shdCtrl[n]

/-- The planes are not allocated, or allocated at a size MAX_W and MAX_H admit (R41, R227, R253). -/
def allocLegal (s : State) : Prop :=
  (s.allocW = 0 ∧ s.allocH = 0) ∨
  (1 ≤ s.allocW ∧ s.allocW ≤ s.cfg.maxW ∧ 1 ≤ s.allocH ∧ s.allocH ≤ s.cfg.maxH)

/-- The invariant of the machine: canonical memories, masked registers, coherent shadow tables, a legal allocation. -/
structure Inv (s : State) : Prop where
  memory : Memory.wf s = true
  regs   : regsMasked s.regs
  sht    : shtCoherent s
  alloc  : allocLegal s

/-! ### The Tile Layout Generator, one pixel at a time -/

/-- The operands of one call of the Tile Layout Generator (R110), with FLIP_PIVOT. -/
structure TlgCall where
  pivot   : Coord
  scanMin : Coord
  scanMax : Coord
  center  : Coord
  size    : BitVec 2
  zoom    : Coord
  delta   : Vector Word 8
  flip    : Bool
  mirror  : Bool
  gflip   : Bool
deriving DecidableEq, Repr

/-- The result of a call. -/
def TlgCall.segments (q : TlgCall) : List Segment :=
  tlg q.pivot q.scanMin q.scanMax q.center q.size q.zoom q.delta q.flip q.mirror q.gflip

/-- The axis of a call after global flip (R113). -/
def TlgCall.axis (q : TlgCall) : Axis := axisOf q.pivot q.center q.size q.zoom q.delta q.flip q.mirror q.gflip

/-- What screen pixel p samples under the regime's rule (R116-R120). -/
def TlgCall.sample (q : TlgCall) (p : Nat) : Option Sample := sampleAt q.axis (offsetOf q.axis.center p)

/-- Whether a segment covers a screen pixel (R111). -/
def coversPixel (p : Nat) (g : Segment) : Bool := decide (g.screenMin ≤ p) && decide (p ≤ g.screenMax)

/-- The tile-id offset and the tile-local texel that screen pixel p samples on an axis, none where it does not sample or
the axis is empty (R114, R118-R121). -/
def axisTexel (a : Axis) (p : Nat) : Option (Word × Nat) :=
  if a.zoom = 0 then none
  else (sampleAt a (offsetOf a.center p)).map fun m =>
    (a.delta.toList.getD (tileOf m.t) 0, ((m.t % 1024) / 64).toNat)

/-! ### The Sprite Compositor, one element at a time -/

/-- Record i is active and its bucket is b (R141). -/
def inBucket (s : State) (b i : Byte) : Bool :=
  (decodeRecord s i).active && decide (bucketOf s.regs (decodeRecord s i) = b)

/-- The record that renders in bucket b: the highest-indexed record of that bucket (R141, R142). -/
def bucketOwner (s : State) (b : Byte) : Option Byte := (recordIndices.filter (inBucket s b)).getLast?

/-- The X axis of a record after scroll and global flip (R143, R113). -/
def recordAxisX (s : State) (r : SpriteRecord) : Axis :=
  axisOf s.cfg.flipPivot (r.posX - scrollX s.regs) r.sizeX r.zoomX s.cfg.tileDeltaX r.flipX r.mirrorX (sprGflipX s.regs)

/-- The Y axis of a record after scroll and global flip (R143, R113). -/
def recordAxisY (s : State) (r : SpriteRecord) : Axis :=
  axisOf s.cfg.flipPivot (r.posY - scrollY s.regs) r.sizeY r.zoomY s.cfg.tileDeltaY r.flipY r.mirrorY (sprGflipY s.regs)

/-- The pixel operation of a record at screen pixel (sx, sy) whose axes sample (dx, u) and (dy, v) (R143, R147). -/
def recordPixel (s : State) (r : SpriteRecord) (sx sy : Nat) (tx ty : Word × Nat) : PixelArgs where
  x     := sx - (visMinX s.regs).toNat
  y     := sy - (visMinY s.regs).toNat
  idx   := tileFetch s.cfg (r.tileBase + tx.1 + ty.1) tx.2 ty.2 &&& penMask (depthOf (sprBpp s.regs))
  pm    := penMask (depthOf (sprBpp s.regs))
  pal   := (colorWire s.cfg r.color).color
  wattr := (colorWire s.cfg r.color).attr
  blk   := recordBlk r

/-- What a record makes of the element at screen pixel (sx, sy) that held `old` (R143-R154). -/
def spriteElement (s : State) (r : SpriteRecord) (sx sy : Nat) (old : Pixel) : Pixel :=
  if writeProtected s.regs (recordBlk r) then old
  else
    match axisTexel (recordAxisX s r) sx, axisTexel (recordAxisY s r) sy with
    | some tx, some ty =>
      (pixelOp (recordTdv s.regs r) s.regs (recordPixel s r sx sy tx ty) old.attr).getD old
    | _, _ => old

/-- The sprite planes' element at screen pixel (sx, sy) after a COMPOSE: the cleared element, then every bucket's record in
ascending bucket order (R140, R145). -/
def composeElement (s : State) (sx sy : Nat) : Pixel :=
  recordIndices.foldl (fun px b =>
    match bucketOwner s b with
    | none => px
    | some i => spriteElement s (decodeRecord s i) sx sy px) ⟨0, 0⟩

/-! ### The Layer Priority Mixer -/

/-- Layer L is visible at a pixel of a MIX (R182). -/
def layerShows (s : State) (x y sx sy : Nat) (l : Fin 8) : Prop :=
  layerVisible s.regs l (layerPixel s l x y sx sy) = true

/-- The candidate of layer L at a pixel of a MIX (R181). -/
def candidateAt (s : State) (x y sx sy : Nat) (l : Fin 8) : Candidate :=
  layerCandidate s.regs l (layerPixel s l x y sx sy)

end Sys2Proof.Machine
end

