-- ==== Sys2Proof/WellFormed.lean ====
section
/-! DEFINITION. Which instructions the hardware can be given. Every ADDR and DATA of a command is legal
(spec/30_encoding.md R83), and the field widths are in the types; the operands of a pixel operation have the
ranges of R147 and R92. -/

namespace Sys2Proof

/-- The pen masks `PM(d) = 2^d - 1` of the depths 4 to 8 (R92). -/
def penMasks : List Byte := [0x0F, 0x1F, 0x3F, 0x7F, 0xFF]

/-- The operands `TileDraw` can hand to a pixel operation (R147): an element of a plane of at most
1024 x 1024 (R9), a pen mask of R92 and an index of at most that mask. -/
def PixelArgs.wellFormed (p : PixelArgs) : Bool :=
  decide (p.x < 1024) && decide (p.y < 1024) && penMasks.contains p.pm && decide (p.idx ≤ p.pm)

/-- A well-formed instruction: every command is (R83); a tile-draw variant is where its operands are. -/
def WellFormed : Instr → Bool
  | .reset => true
  | .regWr _ _ => true
  | .regRd _ => true
  | .snapWr _ _ => true
  | .snapRd _ => true
  | .compose => true
  | .mix => true
  | .tdForcePlain p => p.wellFormed
  | .tdForceShadow p => p.wellFormed
  | .tdKeepPlain p => p.wellFormed
  | .tdKeepShadow p => p.wellFormed

end Sys2Proof
end

