-- ==== Sys2Proof/Certificates/Slice0/Obligations.lean ====
section
/-! DEFINITION. The statements for the provers, from the numbered rules of spec/. -/

namespace Sys2Proof.Machine

/-- `o` is a next state in which the sprite planes' element of `p` holds (color, attr), every other element and all
other state being as in `s`. -/
def PaintsElement (s : State) (p : PixelArgs) (o : Host.Outcome State Fault Refusal) (color attr : Word) : Prop :=
  ∃ t, o = .next t ∧ t = { s with sprC := t.sprC, sprA := t.sprA } ∧
    planeRead t.sprC p.x p.y = color ∧ planeRead t.sprA p.x p.y = attr ∧
    ∀ x y, x < 1024 → ¬(x = p.x ∧ y = p.y) →
      planeRead t.sprC x y = planeRead s.sprC x y ∧ planeRead t.sprA x y = planeRead s.sprA x y

/-- The elements of a plane of `s` all read 0x0000. -/
def PlaneClear (s : State) (p : PlaneId) : Prop :=
  ∀ x y, x < s.allocW → y < s.allocH → hostRead s p x y = some 0

/-- `t` is `s` after a valid COMPOSE but for the values of SPR_COLLISIONS, DIAG and the sprite planes: response 0x0000, planes
of the rectangle's size, FR_* and BK_* kept where the size stays and cleared where it changes, all else as in `s`. -/
def ComposeFrame (s t : State) : Prop :=
  t = { s with
    regs := { s.regs with sprCollisions := t.regs.sprCollisions }, diag := t.diag, response := 0
    allocW := rectW s.regs, allocH := rectH s.regs, sprC := t.sprC, sprA := t.sprA
    frC := t.frC, frA := t.frA, bkC := t.bkC, bkA := t.bkA } ∧
  (rectW s.regs = s.allocW → rectH s.regs = s.allocH →
    t.frC = s.frC ∧ t.frA = s.frA ∧ t.bkC = s.bkC ∧ t.bkA = s.bkA) ∧
  (¬(rectW s.regs = s.allocW ∧ rectH s.regs = s.allocH) →
    PlaneClear t .frC ∧ PlaneClear t .frA ∧ PlaneClear t .bkC ∧ PlaneClear t .bkA)

/-- A row of R21's table with its FIELDMASK: register `x` has this address, this access and this mask, and holds this
register of the file. -/
def RegisterRow (x : Reg) (addr : Nat) (rw : Bool) (mask : Word) (holds : Regs → Word) : Prop :=
  (regAddr x).toNat = addr ∧ regWritable x = rw ∧ fieldMask x = mask ∧ ∀ r, regGet r x = holds r

/-- The fields of the compositor's registers and of the visible rectangle stand where R22 to R27 and R30 place them. -/
def CompositorFields (r : Regs) : Prop :=
  (sprPinv r = r.sprCtrl.getLsbD 0 ∧ sprBpp r = r.sprCtrl.extractLsb' 1 3 ∧ sprWrap r = r.sprCtrl.getLsbD 4 ∧
    sprSdet r = r.sprCtrl.getLsbD 5 ∧ sprGflipX r = r.sprCtrl.getLsbD 6 ∧ sprGflipY r = r.sprCtrl.getLsbD 7) ∧
  (scrollX r = r.sprScrollX.extractLsb' 0 10 ∧ scrollY r = r.sprScrollY.extractLsb' 0 10 ∧ keepMask r = r.sprKeepMask) ∧
  (∀ b : Fin 4, blkTmask r b = r.sprBlkCtrl[b].extractLsb' 0 8 ∧ blkWp r b = r.sprBlkCtrl[b].getLsbD 8 ∧
    blkSattr r b = r.sprBlkShadow[b]) ∧
  (visMinX r = r.visMinX.extractLsb' 0 10 ∧ visMaxX r = r.visMaxX.extractLsb' 0 10 ∧
    visMinY r = r.visMinY.extractLsb' 0 10 ∧ visMaxY r = r.visMaxY.extractLsb' 0 10) ∧
  (visMinX r ≤ visMaxX r → (rectW r : Int) = (visMaxX r).toNat - (visMinX r).toNat + 1) ∧
  (visMinY r ≤ visMaxY r → (rectH r : Int) = (visMaxY r).toNat - (visMinY r).toNat + 1)

/-- The fields of the mixer's registers stand where R31 to R36 place them. -/
def MixerFields (r : Regs) : Prop :=
  mixPinv r = r.mixCtrl.getLsbD 0 ∧
  (∀ v, shdThr v = v.extractLsb' 0 8 ∧ shdMode v = v.extractLsb' 8 2) ∧
  ∀ l : Fin 8,
    (lyrPri r l = r.lyrPri[l].extractLsb' 0 8 ∧ lyrAlt r l = r.lyrPri[l].extractLsb' 8 8) ∧
    (lyrOvrThr r l = r.lyrOvr[l].extractLsb' 0 8 ∧ lyrOvrEn r l = r.lyrOvr[l].getLsbD 8) ∧
    (lyrBank r l = r.lyrCol[l].extractLsb' 0 8 ∧ lyrBpp r l = r.lyrCol[l].extractLsb' 8 3 ∧
      lyrShen r l = r.lyrCol[l].getLsbD 11 ∧ lyrDisp r l = r.lyrCol[l].getLsbD 12) ∧
    lyrBmask r l = r.lyrMask[l].extractLsb' 0 8 ∧ lyrMmask r l = r.lyrMask[l].extractLsb' 8 2

/-- E_CMD, E_RECT and E_TILE are bits 0, 1 and 2 of STATUS (R29, R250), and no cause has another bit. -/
def StatusFields (c : Causes) : Prop :=
  (causeBits c).getLsbD 0 = c.eCmd ∧ (causeBits c).getLsbD 1 = c.eRect ∧ (causeBits c).getLsbD 2 = c.eTile ∧
  causeBits c &&& ~~~(fieldMask .status) = 0

/-- Record i's fields are the bits of its eight SNAP words that R86 gives them, and BLK is the top two bits of COLOR (R159). -/
def RecordFields (s : State) (i : Byte) : Prop :=
  let w := fun j => (snapRead s (8 * i.toNat + j)).toNat
  let r := decodeRecord s i
  (r.active = true ↔ w 0 / 2 ^ 15 % 2 = 1) ∧ r.sizeY.toNat = w 0 / 2 ^ 12 % 4 ∧ r.sizeX.toNat = w 0 / 2 ^ 10 % 4 ∧
  (r.flipY = true ↔ w 0 / 2 ^ 9 % 2 = 1) ∧ (r.flipX = true ↔ w 0 / 2 ^ 8 % 2 = 1) ∧ r.priority.toNat = w 0 % 2 ^ 8 ∧
  r.tileBase.toNat = w 1 ∧ r.posX.toNat = w 2 % 2 ^ 10 ∧ r.posY.toNat = w 3 % 2 ^ 10 ∧
  r.zoomX.toNat = w 4 % 2 ^ 10 ∧ r.zoomY.toNat = w 5 % 2 ^ 10 ∧
  r.color.toNat = w 6 ∧ (recordBlk r).val = w 6 / 2 ^ 14 ∧
  r.shmode.toNat = w 7 % 4 ∧ (r.mirrorX = true ↔ w 7 / 4 % 2 = 1) ∧ (r.mirrorY = true ↔ w 7 / 8 % 2 = 1)

/-- The pixel operations of the four TDV codes are those of R151, R152, R153 and R154 on an element whose attribute is `old`: the
new color and attribute, none where both planes stay. -/
def PixelOpsOfCodes (r : Regs) (p : PixelArgs) (old : Word) : Prop :=
  let tmask : Byte := r.sprBlkCtrl[p.blk].extractLsb' 0 8
  let sattr : Word := r.sprBlkShadow[p.blk]
  let kept : Word → Word := fun new => old ||| (new &&& r.sprKeepMask)
  let plain : Word → Option Pixel := fun attr =>
    if p.idx &&& tmask = 0 then none else some ⟨p.pal + p.idx.setWidth 16, attr⟩
  pixelOp (tdvOfCode 0b00) r p old = plain p.wattr ∧
  pixelOp (tdvOfCode 0b01) r p old = (if p.idx = p.pm then some ⟨p.pal, sattr⟩ else plain p.wattr) ∧
  pixelOp (tdvOfCode 0b10) r p old = plain (kept p.wattr) ∧
  pixelOp (tdvOfCode 0b11) r p old = (if p.idx = p.pm then some ⟨p.pal, kept sattr⟩ else plain (kept p.wattr))

end Sys2Proof.Machine

open Sys2Proof Sys2Proof.Machine

/-! ### Encodings -/

/-- R80, R81, R84, R90: the decoder gives back every well-formed instruction from its encoding. -/
def Obligations.DecodeEncodeRoundTrip : Prop :=
  ∀ i : Instr, WellFormed i = true → decode (encode i) = .ok i

/-- R81: OP = word[31:27] selects the command, ADDR = word[26:16] and DATA = word[15:0] are its operands where it reads
them, and nothing else of the word matters. -/
def Obligations.OpFieldSelectsCommand : Prop :=
  ∀ w : CmdWord,
    (w.extractLsb' 27 5 = 0x01 → decodeCommand w = .ok .reset) ∧
    (w.extractLsb' 27 5 = 0x02 → decodeCommand w = .ok (.regWr (w.extractLsb' 16 11) (w.extractLsb' 0 16))) ∧
    (w.extractLsb' 27 5 = 0x03 → decodeCommand w = .ok (.regRd (w.extractLsb' 16 11))) ∧
    (w.extractLsb' 27 5 = 0x04 → decodeCommand w = .ok (.snapWr (w.extractLsb' 16 11) (w.extractLsb' 0 16))) ∧
    (w.extractLsb' 27 5 = 0x05 → decodeCommand w = .ok (.snapRd (w.extractLsb' 16 11))) ∧
    (w.extractLsb' 27 5 = 0x06 → decodeCommand w = .ok .compose) ∧
    (w.extractLsb' 27 5 = 0x07 → decodeCommand w = .ok .mix)

/-- R82, R83: exactly the words with OP 0x00 or 0x08 to 0x1F are rejected. -/
def Obligations.OnlyReservedOpsRejected : Prop :=
  ∀ w : CmdWord, (∃ e, decodeCommand w = .error e) ↔ (w.extractLsb' 27 5 = 0 ∨ 8 ≤ (w.extractLsb' 27 5).toNat)

/-- A decoded command's own encoding has the same OP and decodes to it again. -/
def Obligations.DecodedCommandReencodes : Prop :=
  ∀ (w : CmdWord) (i : Instr), decodeCommand w = .ok i →
    ∃ v : CmdWord, encode i = .command v ∧ v.extractLsb' 27 5 = w.extractLsb' 27 5 ∧ decodeCommand v = .ok i

/-- Words written out in R221 to R228 and the codes of R90 decode to their instructions. -/
def Obligations.SpecWordsDecode : Prop :=
  decodeCommand 0x20088010 = .ok (.snapWr 0x008 0x8010) ∧
  decodeCommand 0x10210240 = .ok (.regWr 0x021 0x0240) ∧
  decodeCommand 0x180C0000 = .ok (.regRd 0x00C) ∧
  decodeCommand 0x28080000 = .ok (.snapRd 0x008) ∧
  decodeCommand 0x08000000 = .ok .reset ∧
  decodeCommand 0x30000000 = .ok .compose ∧
  decodeCommand 0x38000000 = .ok .mix ∧
  (∀ p, decodeTileDraw ⟨0b00, p⟩ = .tdForcePlain p) ∧ (∀ p, decodeTileDraw ⟨0b01, p⟩ = .tdForceShadow p) ∧
  (∀ p, decodeTileDraw ⟨0b10, p⟩ = .tdKeepPlain p) ∧ (∀ p, decodeTileDraw ⟨0b11, p⟩ = .tdKeepShadow p)

/-! ### Steps -/

/-- R220: a step performs the command the host presents. The rest is the model's choice, not R220's: the presented commands are
the list `port` and a step takes its first (notes/assumptions/3.md), every command, not MIX alone, puts the inputs it carries in
`layers` (notes/assumptions/8.md), and no tile-draw variant is in the model's slot (notes/assumptions/4.md). -/
def Obligations.StepRunsDecodedCommand : Prop :=
  ∀ (s : State) (c : HostCommand) (rest : List HostCommand) (i : Instr),
    s.pixelSlot = none → s.port = c :: rest → decodeCommand c.word = .ok i →
      step s = exec i { s with port := rest, layers := c.layers }

/-- With a tile-draw variant in the model's slot (notes/assumptions/4.md), a step is that variant. -/
def Obligations.StepRunsTileDraw : Prop :=
  ∀ (s : State) (it : PixelItem), s.pixelSlot = some it →
    step s = exec (decodeTileDraw it) { s with pixelSlot := none }

/-- A step with a reserved OP sets STATUS.E_CMD, changes nothing else and answers 0x0000, as R82 says. The model's choice beside
it: the command leaves the list `port` (notes/assumptions/3.md), its inputs go to `layers` (notes/assumptions/8.md), and the
premise that the model's slot is empty (notes/assumptions/4.md). -/
def Obligations.ReservedOpSetsECmd : Prop :=
  ∀ (s : State) (c : HostCommand) (rest : List HostCommand),
    s.pixelSlot = none → s.port = c :: rest →
    (c.word.extractLsb' 27 5 = 0 ∨ 8 ≤ (c.word.extractLsb' 27 5).toNat) →
      step s = .next { s with
        port := rest, layers := c.layers, response := 0
        regs := { s.regs with status := s.regs.status ||| 0x0001 } }

/-- R265: with no command on the port the machine holds all its state. (The list `port` and the model's slot, empty in the premises,
are the model's: notes/assumptions/3.md and 4.md.) -/
def Obligations.IdleHoldsState : Prop :=
  ∀ s : State, s.pixelSlot = none → s.port = [] → step s = .next s

/-- R220, R160, R197: between commands every step completes. That the step leaves the model's slot empty, as its premise has it, is
the model's choice: no command fills the slot (notes/assumptions/4.md). -/
def Obligations.StepAlwaysCompletes : Prop :=
  ∀ s : State, s.pixelSlot = none → ∃ t, step s = .next t ∧ t.pixelSlot = none

/-! ### Invariants and whole-machine rules -/

/-- The invariant of the machine holds after power-on. -/
def Obligations.ResetStateInv : Prop := Inv State.reset

/-- Every step keeps the invariant: canonical memories, reserved register bits 0, coherent shadow tables, a legal
allocation. -/
def Obligations.StepKeepsInv : Prop :=
  ∀ s t : State, Inv s → step s = .next t → Inv t

/-- R42: at every command boundary SHT[n][i] is ShadowBit(MODE, THR, i) of SHD_CTRL(n). -/
def Obligations.ShadowTablesFollowShdCtrl : Prop :=
  let coherent : State → Prop := fun s => ∀ (n : Fin 3) (i : Byte),
    shtEntry s n i = shadowBit (shdMode s.regs.shdCtrl[n]) (shdThr s.regs.shdCtrl[n]) i
  coherent State.reset ∧ ∀ s t : State, coherent s → step s = .next t → coherent t

/-- R256: a step that is not a RESET clears no STATUS bit, and a run that sets a bit is never good, whatever follows. The third clause
is the model's reading of R256, not its words (notes/assumptions/15.md, DEDUCED): a run is good iff it completes with STATUS 0 and
none of its steps raises an error, where an error whose bit was already set counts as raised, and a bit set before the run began
does not count once a RESET has cleared it. -/
def Obligations.StatusBitsSticky : Prop :=
  (∀ s t : State, step s = .next t →
    (∃ c rest, s.pixelSlot = none ∧ s.port = c :: rest ∧ decodeCommand c.word = .ok .reset) ∨
    ∀ n : Nat, s.regs.status.getLsbD n = true → t.regs.status.getLsbD n = true) ∧
  (∀ (j k n : Nat) (s t u : State), core.run j s = .next t → step t = .next u →
    t.regs.status.getLsbD n = false → u.regs.status.getLsbD n = true → goodFinal (j + 1 + k) s = false) ∧
  ∀ (k : Nat) (s : State), goodFinal k s = true ↔
    (∃ t : State, core.run k s = .next t ∧ t.regs.status = 0) ∧
    ∀ (j : Nat) (t : State), j < k → core.run j s = .next t → causesAny (stepErrors t) = false

/-- R250: a step changes STATUS only by RESET, a reserved OP, a COMPOSE or MIX with an invalid rectangle, or a COMPOSE
without the tile-fetch capability. A step that is not a RESET sets exactly the bits of the causes it raises, which is E_CMD for a
reserved OP, E_RECT for an invalid rectangle, E_TILE for a COMPOSE without the capability, and nothing otherwise. -/
def Obligations.StatusChangesOnlyByCauses : Prop :=
  (∀ s t : State, step s = .next t → t.regs.status ≠ s.regs.status →
    ∃ c rest, s.pixelSlot = none ∧ s.port = c :: rest ∧
      (decodeCommand c.word = .ok .reset ∨ (∃ e, decodeCommand c.word = .error e) ∨
       (decodeCommand c.word = .ok .mix ∧ rectValid s = false) ∨
       (decodeCommand c.word = .ok .compose ∧ (rectValid s = false ∨ s.cfg.tileRomPresent = false)))) ∧
  (∀ s t : State, step s = .next t →
    (∃ c rest, s.pixelSlot = none ∧ s.port = c :: rest ∧ decodeCommand c.word = .ok .reset) ∨
    t.regs.status = s.regs.status ||| causeBits (stepErrors s)) ∧
  ∀ s : State,
    let performs : (CmdWord → Prop) → Prop := fun is => ∃ c rest, s.pixelSlot = none ∧ s.port = c :: rest ∧ is c.word
    ((stepErrors s).eCmd = true ↔ performs fun w => w.extractLsb' 27 5 = 0 ∨ 8 ≤ (w.extractLsb' 27 5).toNat) ∧
    ((stepErrors s).eRect = true ↔
      rectValid s = false ∧ performs fun w => w.extractLsb' 27 5 = 0x06 ∨ w.extractLsb' 27 5 = 0x07) ∧
    ((stepErrors s).eTile = true ↔
      s.cfg.tileRomPresent = false ∧ performs fun w => w.extractLsb' 27 5 = 0x06)

/-- R282: no step changes the parameters or the capabilities. -/
def Obligations.StepKeepsInstallation : Prop :=
  ∀ s t : State, step s = .next t → t.cfg = s.cfg

/-- R38, R87: only SNAP_WR and RESET change a snapshot word. -/
def Obligations.SnapWrittenOnlyBySnapWrAndReset : Prop :=
  ∀ (i : Instr) (s t : State), exec i s = .next t → i ≠ .reset → (∀ a d, i ≠ .snapWr a d) →
    ∀ a, snapRead t a = snapRead s a

/-- R21, R28, R29, R43: who writes what. Only REG_WR and RESET change an RW register, only COMPOSE and RESET change
SPR_COLLISIONS, only COMPOSE and RESET change DIAG, and COMPOSE only appends to it. -/
def Obligations.RegisterAndDiagWriters : Prop :=
  ∀ (i : Instr) (s t : State), exec i s = .next t → i ≠ .reset →
    (∀ x, regWritable x = true → (∀ a d, i ≠ .regWr a d) → regGet t.regs x = regGet s.regs x) ∧
    (i ≠ .compose → t.regs.sprCollisions = s.regs.sprCollisions ∧ t.diag = s.diag) ∧
    (∃ es, t.diag = s.diag ++ es)

/-! ### Register and snapshot commands -/

/-- R48: the state after power-on. -/
def Obligations.PowerOnState : Prop :=
  (∀ x, regGet State.reset.regs x = 0) ∧ (∀ n i, shtEntry State.reset n i = false) ∧ State.reset.diag = [] ∧
  State.reset.allocW = 0 ∧ State.reset.allocH = 0 ∧ ∀ p x y, hostRead State.reset p x y = none

/-- R222: RESET completes; registers 0x0000, tables all zero, DIAG empty, no planes, response 0x0000; every snapshot word takes
a free value (notes/assumptions/1.md). The installation and the layer inputs stay (R282). Not R222's but the model's: the commands
still to be presented stay on the port (notes/assumptions/13.md, DEDUCED), and the model's slot stays as it is
(notes/assumptions/4.md). -/
def Obligations.ResetCommandResult : Prop :=
  ∀ s : State, ∃ t, exec .reset s = .next t ∧
    (∀ x, regGet t.regs x = 0) ∧ (∀ n i, shtEntry t n i = false) ∧ t.diag = [] ∧ t.allocW = 0 ∧ t.allocH = 0 ∧
    (∀ p x y, hostRead t p x y = none) ∧ t.response = 0 ∧
    (∀ a, snapRead t a = Config.snapAfterReset (s.resets + 1) a) ∧
    t.cfg = s.cfg ∧ t.port = s.port ∧ t.layers = s.layers ∧ t.pixelSlot = s.pixelSlot

/-- R21 with R22 to R36: the address, access and FIELDMASK of every register and the register it names; the map is one-to-one, and
the addresses it leaves unmapped are those R21 lists; and the fields of every register stand where its rule places them, the three
bits of STATUS as those of the causes. (COUNT is all of SPR_COLLISIONS: CollisionsCountedAndReported.) -/
def Obligations.RegisterMapExact : Prop :=
  (RegisterRow .sprCtrl 0x000 true 0x00FF (·.sprCtrl) ∧
    RegisterRow .sprScrollX 0x001 true 0x03FF (·.sprScrollX) ∧
    RegisterRow .sprScrollY 0x002 true 0x03FF (·.sprScrollY) ∧
    RegisterRow .sprKeepMask 0x003 true 0xFFFF (·.sprKeepMask) ∧
    (∀ b : Fin 4, RegisterRow (.sprBlkCtrl b) (0x004 + b.val) true 0x01FF (·.sprBlkCtrl[b]) ∧
      RegisterRow (.sprBlkShadow b) (0x008 + b.val) true 0xFFFF (·.sprBlkShadow[b])) ∧
    RegisterRow .sprCollisions 0x00C false 0x01FF (·.sprCollisions) ∧
    RegisterRow .status 0x00D false 0x0007 (·.status) ∧
    RegisterRow .visMinX 0x010 true 0x03FF (·.visMinX) ∧
    RegisterRow .visMaxX 0x011 true 0x03FF (·.visMaxX) ∧
    RegisterRow .visMinY 0x012 true 0x03FF (·.visMinY) ∧
    RegisterRow .visMaxY 0x013 true 0x03FF (·.visMaxY) ∧
    RegisterRow .mixCtrl 0x020 true 0x0001 (·.mixCtrl) ∧
    (∀ n : Fin 3, RegisterRow (.shdCtrl n) (0x021 + n.val) true 0x03FF (·.shdCtrl[n])) ∧
    ∀ l : Fin 8,
      RegisterRow (.lyrPri l) (0x028 + 4 * l.val) true (if l.val < 2 then 0xFFFF else 0x00FF) (·.lyrPri[l]) ∧
      RegisterRow (.lyrOvr l) (0x029 + 4 * l.val) true 0x01FF (·.lyrOvr[l]) ∧
      RegisterRow (.lyrCol l) (0x02A + 4 * l.val) true 0x1FFF (·.lyrCol[l]) ∧
      RegisterRow (.lyrMask l) (0x02B + 4 * l.val) true 0x03FF (·.lyrMask[l])) ∧
  (∀ x, regOfAddr (regAddr x) = some x) ∧ (∀ a x, regOfAddr a = some x → regAddr x = a) ∧
  (∀ a : Addr, regOfAddr a = none ↔
    (a.toNat = 0x00E ∨ a.toNat = 0x00F) ∨ (0x014 ≤ a.toNat ∧ a.toNat ≤ 0x01F) ∨
    (0x024 ≤ a.toNat ∧ a.toNat ≤ 0x027) ∨ 0x048 ≤ a.toNat) ∧
  (∀ r : Regs, CompositorFields r ∧ MixerFields r) ∧ ∀ c : Causes, StatusFields c

/-- R223: REG_WR completes with response 0x0000; an RW register takes DATA & FIELDMASK, SHT[n] is recomputed for SHD_CTRL(n), every
other register and table stays; an RO register or an unmapped address has no effect; nothing else changes. -/
def Obligations.RegWrResult : Prop :=
  (∀ (s : State) (x : Reg) (d : Word), regWritable x = true → ∃ t,
    exec (.regWr (regAddr x) d) s = .next t ∧ regGet t.regs x = d &&& fieldMask x ∧
    (∀ y, y ≠ x → regGet t.regs y = regGet s.regs y) ∧
    (∀ n : Fin 3, x = .shdCtrl n → t.sht[n] = computeSht (d &&& fieldMask x)) ∧
    (∀ n : Fin 3, x ≠ .shdCtrl n → t.sht[n] = s.sht[n]) ∧
    t = { s with regs := t.regs, sht := t.sht, response := 0 }) ∧
  (∀ (s : State) (a : Addr) (d : Word), (∀ x, regOfAddr a = some x → regWritable x = false) →
    exec (.regWr a d) s = .next { s with response := 0 })

/-- R224: REG_RD completes with the register's value, 0x0000 for an unmapped address, as its response, and changes nothing
else. -/
def Obligations.RegRdResult : Prop :=
  (∀ (s : State) (x : Reg), exec (.regRd (regAddr x)) s = .next { s with response := regGet s.regs x }) ∧
  (∀ (s : State) (a : Addr), regOfAddr a = none → exec (.regRd a) s = .next { s with response := 0 })

/-- R21, R223, R224: a register written and read back answers DATA & FIELDMASK where it is RW, its old value where it is RO. -/
def Obligations.RegWrThenRegRd : Prop :=
  ∀ (s : State) (x : Reg) (d : Word), ∃ t u,
    exec (.regWr (regAddr x) d) s = .next t ∧ exec (.regRd (regAddr x)) t = .next u ∧
    u.response = if regWritable x then d &&& fieldMask x else regGet s.regs x

/-- R221: SNAP_WR completes with response 0x0000, the addressed word takes DATA, every other word and all other state stays. -/
def Obligations.SnapWrResult : Prop :=
  ∀ (s : State) (a : Addr) (d : Word), ∃ t, exec (.snapWr a d) s = .next t ∧
    snapRead t a.toNat = d ∧ (∀ b, b ≠ a.toNat → snapRead t b = snapRead s b) ∧
    t = { s with snap := t.snap, response := 0 }

/-- R228: SNAP_RD completes with the addressed word as its response and changes nothing else. -/
def Obligations.SnapRdResult : Prop :=
  ∀ (s : State) (a : Addr), exec (.snapRd a) s = .next { s with response := snapRead s a.toNat }

/-- R67: a read repeated answers the same; a register or snapshot write repeated equals one write; COMPOSE repeated leaves the
same sprite planes and count and appends the same events again; MIX repeated leaves the same state. -/
def Obligations.RepeatedCommands : Prop :=
  (∀ (s t : State) (i : Instr), (∃ a, i = .regRd a) ∨ (∃ a, i = .snapRd a) ∨ (∃ a d, i = .regWr a d) ∨
    (∃ a d, i = .snapWr a d) ∨ i = .mix → exec i s = .next t → exec i t = .next t) ∧
  (∀ s t u : State, exec .compose s = .next t → exec .compose t = .next u →
    ∃ es, t.diag = s.diag ++ es ∧ u = { t with diag := t.diag ++ es })

/-! ### Configuration errors -/

/-- R253, R254, R257: which rectangles are invalid, and what a COMPOSE or MIX then does: every cause that holds sets its STATUS
bit, the response is 0x0000, nothing else changes; a valid COMPOSE or MIX leaves STATUS alone, and MIX never raises E_TILE. -/
def Obligations.ConfigurationErrors : Prop :=
  ∀ s : State,
    let badRect := visMaxX s.regs < visMinX s.regs ∨ visMaxY s.regs < visMinY s.regs ∨
      s.cfg.maxW < rectW s.regs ∨ s.cfg.maxH < rectH s.regs
    let failed : Word → State := fun bits =>
      { s with regs := { s.regs with status := s.regs.status ||| bits }, response := 0 }
    (badRect → s.cfg.tileRomPresent = true → exec .compose s = .next (failed 0x0002)) ∧
    (badRect → s.cfg.tileRomPresent = false → exec .compose s = .next (failed 0x0006)) ∧
    (¬badRect → s.cfg.tileRomPresent = false → exec .compose s = .next (failed 0x0004)) ∧
    (badRect → exec .mix s = .next (failed 0x0002)) ∧
    (¬badRect → s.cfg.tileRomPresent = true → ∃ t, exec .compose s = .next t ∧ t.regs.status = s.regs.status) ∧
    (¬badRect → ∃ t, exec .mix s = .next t ∧ t.regs.status = s.regs.status)

/-! ### COMPOSE -/

/-- R225, R227: a valid COMPOSE completes with response 0x0000 and planes of the rectangle's size; it changes the sprite planes,
SPR_COLLISIONS, DIAG and the size only, but for FR_* and BK_*, which are cleared where the size changes. -/
def Obligations.ComposeCompletes : Prop :=
  ∀ s : State, rectValid s = true → s.cfg.tileRomPresent = true → ∃ t, exec .compose s = .next t ∧ ComposeFrame s t

/-- R141: a record is in bucket b iff its ACTIVE bit is set and its PRIORITY, inverted under SPR_CTRL.PINV, is b; after bucketing, a
bucket holds the highest-indexed active record of that bucket, and none where there is none. -/
def Obligations.LastRecordOwnsBucket : Prop :=
  ∀ (s : State) (b : Byte),
    (∀ i : Byte, inBucket s b i = true ↔ (snapRead s (8 * i.toNat)).getLsbD 15 = true ∧
      (snapRead s (8 * i.toNat)).extractLsb' 0 8 ^^^ (if s.regs.sprCtrl.getLsbD 0 then 0xFF else 0x00) = b) ∧
    match bucketGet (bucketing s).1 b with
    | none => ∀ i, ¬(inBucket s b i = true)
    | some i => inBucket s b i = true ∧ ∀ j, i < j → ¬(inBucket s b j = true)

/-- R142: a COMPOSE appends one event per collision, in memory order, each naming the bucket's previous occupant, and counts them
in SPR_COLLISIONS, at most 255. -/
def Obligations.CollisionsCountedAndReported : Prop :=
  ∀ s : State, rectValid s = true → s.cfg.tileRomPresent = true → ∃ t es, exec .compose s = .next t ∧
    t.diag = s.diag ++ es ∧ t.regs.sprCollisions.toNat = es.length ∧ es.length ≤ 255 ∧
    es.Pairwise (fun e f => e.newIndex < f.newIndex) ∧
    ∀ e, e ∈ es ↔ e.oldIndex < e.newIndex ∧ inBucket s e.bucket e.oldIndex = true ∧
      inBucket s e.bucket e.newIndex = true ∧
      ∀ j, e.oldIndex < j → j < e.newIndex → ¬(inBucket s e.bucket j = true)

/-- R144: a block is write protected iff its WP and WRAP are both set; a record of a protected block draws nothing, a record of any
other block every pair of its segments (R143). A protected record's bucket stays consumed: which records take the buckets, and the
collisions, do not depend on WP and WRAP, and where the owner i of bucket b is protected, a COMPOSE leaves the sprite planes it would
leave with every record of that bucket inactive, so no other record draws in its place. -/
def Obligations.WriteProtectedSpriteSkipped : Prop :=
  (∀ (s : State) (r : SpriteRecord) (pl : SpritePlanes),
    blkWp s.regs (recordBlk r) = true → sprWrap s.regs = true → drawSprite s r pl = pl) ∧
  (∀ (g : Regs) (b : Fin 4), writeProtected g b = true ↔
    g.sprBlkCtrl[b].getLsbD 8 = true ∧ g.sprCtrl.getLsbD 4 = true) ∧
  (∀ (s : State) (r : SpriteRecord) (pl : SpritePlanes),
    blkWp s.regs (recordBlk r) = false ∨ sprWrap s.regs = false →
      drawSprite s r pl = (recordSegmentsY s r).foldl (fun pl gy =>
        (recordSegmentsX s r).foldl (fun pl gx => tileDraw s (paintOf s r) gx gy pl) pl) pl) ∧
  (∀ (s s' : State) (c : Word) (v : Vector Word 4), c.getLsbD 0 = s.regs.sprCtrl.getLsbD 0 →
    s' = { s with regs := { s.regs with sprCtrl := c, sprBlkCtrl := v } } →
      (bucketing s').1 = (bucketing s).1 ∧ (bucketing s').2.diag = (bucketing s).2.diag ∧
      (bucketing s').2.regs.sprCollisions = (bucketing s).2.regs.sprCollisions) ∧
  ∀ (s s' : State) (b i : Byte), rectValid s = true → s.cfg.tileRomPresent = true →
    inBucket s b i = true → (∀ j, i < j → inBucket s b j = false) →
    blkWp s.regs (recordBlk (decodeRecord s i)) = true → sprWrap s.regs = true →
    s' = { s with snap := s'.snap } →
    (∀ j, decodeRecord s' j = { decodeRecord s j with active := (decodeRecord s j).active && !inBucket s b j }) →
      ∃ t t', exec .compose s = .next t ∧ exec .compose s' = .next t' ∧ t.sprC = t'.sprC ∧ t.sprA = t'.sprA

/-- R225, R227: with no active record a valid COMPOSE completes and only clears the sprite planes and SPR_COLLISIONS: DIAG stays, the
response is 0x0000, and FR_*, BK_* and the size change only where the pass reallocates. -/
def Obligations.ComposeWithoutActiveRecordsClears : Prop :=
  ∀ s : State, rectValid s = true → s.cfg.tileRomPresent = true →
    (∀ i, (decodeRecord s i).active = false) → ∃ t, exec .compose s = .next t ∧ ComposeFrame s t ∧
    PlaneClear t .sprC ∧ PlaneClear t .sprA ∧ t.regs.sprCollisions = 0 ∧ t.diag = s.diag

/-- R140-R154: a valid COMPOSE leaves in every element of the sprite planes what the element-wise reference gives: the cleared
element, then, in ascending bucket order, the owner of each bucket through its per-pixel texel. What the reference shares with the
model is stated beside it: the record fields (R86, R159), the variant of a record (R146, R90), the four pixel operations
(R151-R154) and the pen mask (R92, R147), each from raw bits; and where a texel and a color code stand in the installation's tables,
which is the model's choice (notes/assumptions/14.md, notes/assumptions/2.md). -/
def Obligations.ComposeElementsMatchReference : Prop :=
  (∀ s : State, rectValid s = true → s.cfg.tileRomPresent = true → ∃ t, exec .compose s = .next t ∧
    ∀ x y, x < rectW s.regs → y < rectH s.regs →
      hostRead t .sprC x y =
        some (composeElement s ((visMinX s.regs).toNat + x) ((visMinY s.regs).toNat + y)).color ∧
      hostRead t .sprA x y =
        some (composeElement s ((visMinX s.regs).toNat + x) ((visMinY s.regs).toNat + y)).attr) ∧
  (∀ (s : State) (i : Byte), RecordFields s i) ∧
  (∀ (g : Regs) (r : SpriteRecord), recordTdv g r =
    tdvOfCode (BitVec.ofBool (r.shmode.getLsbD 1) ++ BitVec.ofBool (r.shmode.getLsbD 0 && g.sprCtrl.getLsbD 5))) ∧
  (∀ (g : Regs) (p : PixelArgs) (old : Word), PixelOpsOfCodes g p old) ∧
  (∀ g : Regs, (penMask (depthOf (sprBpp g))).toNat + 1 = 2 ^ (4 + min (g.sprCtrl.toNat / 2 % 8) 4)) ∧
  ∀ (c : Installation) (id raw : Word) (u v : Nat),
    tileFetch c id u v = tableGet c.tileRom (256 * id.toNat + 16 * v + u) ∧
    colorWire c raw = tableGet c.colorWiring raw.toNat

/-- R289: a COMPOSE and MIX over some rows give, in all six planes, what they give over any other rows at the same screen
coordinate, and the same count and events. -/
def Obligations.ScanlineBatchAgrees : Prop :=
  ∀ (s s' : State) (a b : Word), s' = { s with regs := { s.regs with visMinY := a, visMaxY := b } } →
    rectValid s = true → rectValid s' = true → s.cfg.tileRomPresent = true → ∃ t u t' u',
      exec .compose s = .next t ∧ exec .mix t = .next u ∧
      exec .compose s' = .next t' ∧ exec .mix t' = .next u' ∧
      u.regs.sprCollisions = u'.regs.sprCollisions ∧ u.diag = u'.diag ∧
      ∀ (p : PlaneId) (x y y' : Nat), x < rectW s.regs → y < rectH s.regs → y' < rectH s'.regs →
        (visMinY s.regs).toNat + y = (visMinY s'.regs).toNat + y' → hostRead u p x y = hostRead u' p x y'

/-! ### The Tile Layout Generator -/

/-- R114: zoom 0 or an inverted scan range gives the empty list. -/
def Obligations.EmptyAxisHasNoSegments : Prop :=
  ∀ q : TlgCall, q.zoom = 0 ∨ q.scanMax < q.scanMin → q.segments = []

/-- R113: global flip reflects the center at FLIP_PIVOT mod 1024 and inverts flip, before generation; mirror and the scan range
stay. -/
def Obligations.GlobalFlipRemapsCenter : Prop :=
  ∀ q : TlgCall, q.gflip = true →
    q.segments = TlgCall.segments { q with center := q.pivot - q.center, flip := !q.flip, gflip := false }

/-- R116: the offset of a screen pixel is congruent to p - center mod 1024 and in -512..511. -/
def Obligations.OffsetCongruentInWindow : Prop :=
  ∀ (center : Coord) (p : Nat),
    (offsetOf center p - ((p : Int) - (center.toNat : Int))) % 1024 = 0 ∧
    -512 ≤ offsetOf center p ∧ offsetOf center p ≤ 511

/-- R115, R117 to R120, R113: the regime of an axis, M where mirror is set, else R where flip is set, else F, flip inverted under global
flip; and what offset k samples in each: F at Cfx + k * zoom and R at Cfx - 1 - k * zoom, where that lies in 0..Wfx-1; M like F for
k < 0, like R with half 1 for k >= 0, where that is not negative, and then below Cfx. Regime R samples the mirror image of F. -/
def Obligations.ReversedMirrorsForward : Prop :=
  (∀ (pivot center : Coord) (size : BitVec 2) (zoom : Coord) (delta : Vector Word 8) (flip mirror gflip : Bool),
    let a := axisOf pivot center size zoom delta flip mirror gflip
    (mirror = true → a.regime = .mirrored) ∧ (mirror = false → flip ≠ gflip → a.regime = .reversed) ∧
    (mirror = false → flip = gflip → a.regime = .forward) ∧
    a.center = (if gflip then pivot - center else center) ∧ a.size = size ∧ a.zoom = zoom ∧ a.delta = delta) ∧
  (regimeOf false false = .forward ∧ regimeOf true false = .reversed ∧ ∀ flip, regimeOf flip true = .mirrored) ∧
  ∀ (a : Axis) (k : Int),
    let f := sampleAt { a with regime := .forward } k
    let r := sampleAt { a with regime := .reversed } k
    let m := sampleAt { a with regime := .mirrored } k
    let z : Int := a.zoom.toNat
    let cfx := centerFx a.size
    let t := cfx - 1 - k * z
    (widthFx a.size = 64 * (16 * 2 ^ a.size.toNat) ∧ cfx = 32 * (16 * 2 ^ a.size.toNat)) ∧
    (r.isSome = true ↔ 0 ≤ t ∧ t < widthFx a.size) ∧ (f.isSome = r.isSome) ∧
    (∀ n, r = some n → n.t = t ∧ n.step = -z ∧ n.half = 0) ∧
    (∀ n, f = some n → n.t = cfx + k * z ∧ n.step = z ∧ n.half = 0) ∧
    (∀ n o, f = some n → r = some o →
      o.t = widthFx a.size - 1 - n.t ∧ o.step = -n.step ∧ o.t / 64 = widthFx a.size / 64 - 1 - n.t / 64) ∧
    (k < 0 → (m.isSome = true ↔ 0 ≤ cfx + k * z) ∧
      ∀ n, m = some n → n.t = cfx + k * z ∧ n.step = z ∧ n.half = 0) ∧
    (0 ≤ k → (m.isSome = true ↔ 0 ≤ t) ∧ ∀ n, m = some n → n.t = t ∧ n.step = -z ∧ n.half = 1) ∧
    (a.zoom ≠ 0 → ∀ n, m = some n → n.t < cfx)

/-- R124: in every regime the sampling offsets are the interval from -floor(Cfx / zoom) to ceil(Cfx / zoom) - 1. -/
def Obligations.FootprintSameInEveryRegime : Prop :=
  ∀ (a : Axis) (k : Int), a.zoom ≠ 0 →
    let z : Int := a.zoom.toNat
    ((sampleAt a k).isSome = true ↔ -(centerFx a.size / z) ≤ k ∧ k ≤ (centerFx a.size + z - 1) / z - 1)

/-- R122, R111: the segments lie in the scan range and rise without overlap. -/
def Obligations.SegmentsOrderedInScanRange : Prop :=
  ∀ q : TlgCall,
    (∀ g ∈ q.segments, q.scanMin.toNat ≤ g.screenMin ∧ g.screenMin ≤ g.screenMax ∧ g.screenMax ≤ q.scanMax.toNat) ∧
    q.segments.Pairwise fun g h => g.screenMax < h.screenMin

/-- R123: a pixel of the scan range that samples lies in exactly one segment, no other pixel in any, and the segment lengths add up
to the number of sampling pixels. (Zoom 0 has no segment: EmptyAxisHasNoSegments.) -/
def Obligations.SegmentsCoverExactlyOnce : Prop :=
  ∀ q : TlgCall, q.zoom ≠ 0 →
    (∀ p : Nat, (q.segments.filter (coversPixel p)).length =
      if q.scanMin.toNat ≤ p ∧ p ≤ q.scanMax.toNat ∧ (q.sample p).isSome = true then 1 else 0) ∧
    (q.segments.map fun g => g.screenMax + 1 - g.screenMin).sum =
      ((scanRange q.scanMin q.scanMax).filter fun p => (q.sample p).isSome).length

/-- R111: every pixel of a segment samples, in the segment's own tile, the texel position the regime gives it, with the segment's step,
inside the tile. -/
def Obligations.SegmentTexelsStayInTile : Prop :=
  ∀ (q : TlgCall) (g : Segment) (p : Nat), g ∈ q.segments → g.screenMin ≤ p → p ≤ g.screenMax →
    ∃ m, q.sample p = some m ∧ g.texelStep = m.step ∧ tileOf m.t < 8 ∧
      g.tileIdDelta = q.delta.toList.getD (tileOf m.t) 0 ∧
      g.texelStart + ((p : Int) - (g.screenMin : Int)) * g.texelStep = m.t - 1024 * (tileOf m.t : Int) ∧
      0 ≤ m.t - 1024 * (tileOf m.t : Int) ∧ m.t - 1024 * (tileOf m.t : Int) < 1024 ∧ segmentTexel g p ≤ 15

/-- R125: a result has at most 9 segments. -/
def Obligations.AtMostNineSegments : Prop := ∀ q : TlgCall, q.segments.length ≤ 9

/-- R127: at zoom 64, in regime F, with the whole footprint in the scan range, the segments are W/16 runs of 16 pixels from
center - W/2 on, texelStart 0, texelStep +64, tileIdDelta delta[n]. -/
def Obligations.UnityForwardTilesExactly : Prop :=
  ∀ q : TlgCall, q.zoom = 64 → q.axis.regime = .forward →
    let w := 16 <<< q.size.toNat
    let c := q.axis.center.toNat
    q.scanMin.toNat + w / 2 ≤ c → c + w / 2 ≤ q.scanMax.toNat + 1 →
    q.segments = (List.range (w / 16)).map fun n =>
      { screenMin := c - w / 2 + 16 * n, screenMax := c - w / 2 + 16 * n + 15, texelStart := 0, texelStep := 64,
        tileIdDelta := q.delta.toList.getD n 0 }

/-! ### The tile-draw variants -/

/-- R151: TD_FORCE_PLAIN. -/
def Obligations.TdForcePlainResult : Prop :=
  ∀ (s : State) (p : PixelArgs), WellFormed (.tdForcePlain p) = true →
    let out := exec (.tdForcePlain p) s
    decodeTileDraw ⟨0b00, p⟩ = .tdForcePlain p ∧
    (p.idx &&& blkTmask s.regs p.blk ≠ 0 → p.x < s.allocW → p.y < s.allocH →
      PaintsElement s p out (p.pal + p.idx.setWidth 16) p.wattr) ∧
    (p.idx &&& blkTmask s.regs p.blk = 0 → out = .next s)

/-- R152: TD_FORCE_SHADOW. -/
def Obligations.TdForceShadowResult : Prop :=
  ∀ (s : State) (p : PixelArgs), WellFormed (.tdForceShadow p) = true →
    let out := exec (.tdForceShadow p) s
    decodeTileDraw ⟨0b01, p⟩ = .tdForceShadow p ∧
    (p.idx = p.pm → p.x < s.allocW → p.y < s.allocH → PaintsElement s p out p.pal (blkSattr s.regs p.blk)) ∧
    (p.idx ≠ p.pm → p.idx &&& blkTmask s.regs p.blk ≠ 0 → p.x < s.allocW → p.y < s.allocH →
      PaintsElement s p out (p.pal + p.idx.setWidth 16) p.wattr) ∧
    (p.idx ≠ p.pm → p.idx &&& blkTmask s.regs p.blk = 0 → out = .next s)

/-- R153: TD_KEEP_PLAIN. -/
def Obligations.TdKeepPlainResult : Prop :=
  ∀ (s : State) (p : PixelArgs), WellFormed (.tdKeepPlain p) = true →
    let out := exec (.tdKeepPlain p) s
    decodeTileDraw ⟨0b10, p⟩ = .tdKeepPlain p ∧
    (p.idx &&& blkTmask s.regs p.blk ≠ 0 → p.x < s.allocW → p.y < s.allocH →
      PaintsElement s p out (p.pal + p.idx.setWidth 16)
        (planeRead s.sprA p.x p.y ||| (p.wattr &&& s.regs.sprKeepMask))) ∧
    (p.idx &&& blkTmask s.regs p.blk = 0 → out = .next s)

/-- R154: TD_KEEP_SHADOW. -/
def Obligations.TdKeepShadowResult : Prop :=
  ∀ (s : State) (p : PixelArgs), WellFormed (.tdKeepShadow p) = true →
    let out := exec (.tdKeepShadow p) s
    decodeTileDraw ⟨0b11, p⟩ = .tdKeepShadow p ∧
    (p.idx = p.pm → p.x < s.allocW → p.y < s.allocH →
      PaintsElement s p out p.pal
        (planeRead s.sprA p.x p.y ||| (blkSattr s.regs p.blk &&& s.regs.sprKeepMask))) ∧
    (p.idx ≠ p.pm → p.idx &&& blkTmask s.regs p.blk ≠ 0 → p.x < s.allocW → p.y < s.allocH →
      PaintsElement s p out (p.pal + p.idx.setWidth 16)
        (planeRead s.sprA p.x p.y ||| (p.wattr &&& s.regs.sprKeepMask))) ∧
    (p.idx ≠ p.pm → p.idx &&& blkTmask s.regs p.blk = 0 → out = .next s)

/-- The model's choice (notes/assumptions/5.md): a tile-draw variant that would write an element outside the planes faults: all four
for an opaque index, the two shadow-detecting ones for the top code, whatever TMASK says of it. No COMPOSE faults: it always
completes, and every pixel operation of its segment pairs stands at an element of the rectangle's planes (R61). -/
def Obligations.TileDrawOutsidePlanesFaults : Prop :=
  (∀ (s : State) (p : PixelArgs), (s.allocW ≤ p.x ∨ s.allocH ≤ p.y) →
    (p.idx &&& blkTmask s.regs p.blk ≠ 0 →
      exec (.tdForcePlain p) s = .fault .planeElementAbsent ∧
      exec (.tdForceShadow p) s = .fault .planeElementAbsent ∧
      exec (.tdKeepPlain p) s = .fault .planeElementAbsent ∧
      exec (.tdKeepShadow p) s = .fault .planeElementAbsent) ∧
    (p.idx = p.pm →
      exec (.tdForceShadow p) s = .fault .planeElementAbsent ∧
      exec (.tdKeepShadow p) s = .fault .planeElementAbsent)) ∧
  (∀ s : State, ∃ t, exec .compose s = .next t) ∧
  ∀ (s : State) (r : SpriteRecord) (gx gy : Segment) (px py : Nat),
    gx ∈ recordSegmentsX s r → gy ∈ recordSegmentsY s r → px ∈ segmentPixels gx → py ∈ segmentPixels gy →
      (pixelArgsAt s (paintOf s r) gx gy px py).x < rectW s.regs ∧
      (pixelArgsAt s (paintOf s r) gx gy px py).y < rectH s.regs

/-! ### MIX -/

/-- R226, R180, R181: a valid MIX completes with response 0x0000; every element of the four output planes is what MixPixel gives: the
front and back candidates at screen coordinate (VIS_MINX + x, VIS_MINY + y), each after shadow application; it changes the output
planes and the size only, but for SPR_C and SPR_A, which are cleared where the size changes. -/
def Obligations.MixCompletes : Prop :=
  ∀ s : State, rectValid s = true → ∃ t, exec .mix s = .next t ∧
    t = { s with
      response := 0, allocW := rectW s.regs, allocH := rectH s.regs, sprC := t.sprC, sprA := t.sprA
      frC := t.frC, frA := t.frA, bkC := t.bkC, bkA := t.bkA } ∧
    (rectW s.regs = s.allocW → rectH s.regs = s.allocH → t.sprC = s.sprC ∧ t.sprA = s.sprA) ∧
    (¬(rectW s.regs = s.allocW ∧ rectH s.regs = s.allocH) → PlaneClear t .sprC ∧ PlaneClear t .sprA) ∧
    ∀ x y, x < rectW s.regs → y < rectH s.regs →
      let fb := mixCandidates t x y ((visMinX s.regs).toNat + x) ((visMinY s.regs).toNat + y)
      mixPixel t x y = (applyShadow t fb.1, applyShadow t fb.2) ∧
      hostRead t .frC x y = some (applyShadow t fb.1).color ∧ hostRead t .frA x y = some (applyShadow t fb.1).attr ∧
      hostRead t .bkC x y = some (applyShadow t fb.2).color ∧ hostRead t .bkA x y = some (applyShadow t fb.2).attr

/-- R288: a MIX at a new rectangle size mixes as if the sprite layer were not displayed: its result is that of the same state with
LYR_COL(4).DISP clear. -/
def Obligations.MixAtNewSizeSeesNoSprites : Prop :=
  ∀ s : State, rectValid s = true → ¬(rectW s.regs = s.allocW ∧ rectH s.regs = s.allocH) →
    ∃ t, exec .mix s = .next t ∧ ∀ x y, x < rectW s.regs → y < rectH s.regs →
      mixPixel t x y =
        mixPixel { t with regs := { t.regs with lyrCol := t.regs.lyrCol.set 4 (t.regs.lyrCol[4] &&& 0xEFFF) } } x y

/-- R193: front is the visible layer with the lowest key, back the one with the second-lowest; a slot with no such layer holds the
background. -/
def Obligations.FrontAndBackHaveLowestKeys : Prop :=
  ∀ (s : State) (x y sx sy : Nat),
    let shows := layerShows s x y sx sy
    let cand := candidateAt s x y sx sy
    let bg := background (tableGet s.layers.bg (screenKey sx sy))
    let fb := mixCandidates s x y sx sy
    ((∀ l, ¬shows l) → fb = (bg, bg)) ∧
    ∀ l, shows l → (∀ k, shows k → k ≠ l → (cand l).key < (cand k).key) →
      fb.1 = cand l ∧ ((∀ k, shows k → k = l) → fb.2 = bg) ∧
      ∀ m, shows m → m ≠ l → (∀ k, shows k → k ≠ l → k ≠ m → (cand m).key < (cand k).key) → fb.2 = cand m

/-- R184: the key is the effective priority, inverted under PINV, above the layer index; keys of different layers differ, and of
two layers with equal effective priority the earlier has the lower key. -/
def Obligations.KeyPacksPriorityAndLayer : Prop :=
  ∀ (r : Regs) (l : Fin 8) (e : Byte),
    layerKey r l e = 8 * (e ^^^ (if mixPinv r then 0xFF else 0)).toNat + l.val ∧ layerKey r l e < 2048 ∧
    (∀ l' e', layerKey r l e = layerKey r l' e' → l = l') ∧
    (∀ l', l < l' → layerKey r l e < layerKey r l' e)

/-- R195: without PINV the lower effective priority has the lower key, with it the higher one, whatever the layers. -/
def Obligations.PinvReversesPriorities : Prop :=
  ∀ (r : Regs) (l l' : Fin 8) (e e' : Byte), e < e' →
    (mixPinv r = false → layerKey r l e < layerKey r l' e') ∧
    (mixPinv r = true → layerKey r l' e' < layerKey r l e)

/-- R183: the alternate priority counts for layers 0 and 1 alone, with EN set and a compare value, the 8 bits above the layer's
4 + min(BPP, 4) pen bits (R35), above THR. -/
def Obligations.OverrideOnlyForFirstTwoLayers : Prop :=
  ∀ (r : Regs) (l : Fin 8) (c : Word),
    layerDepth r l = 4 + min (r.lyrCol[l].extractLsb' 8 3).toNat 4 ∧
    (2 ≤ l.val → effectivePriority r l c = lyrPri r l) ∧
    (lyrOvrEn r l = false → effectivePriority r l c = lyrPri r l) ∧
    ((c.toNat / 2 ^ layerDepth r l) % 256 ≤ (lyrOvrThr r l).toNat → effectivePriority r l c = lyrPri r l) ∧
    (l.val < 2 → lyrOvrEn r l = true → (lyrOvrThr r l).toNat < (c.toNat / 2 ^ layerDepth r l) % 256 →
      effectivePriority r l c = lyrAlt r l)

/-- R187: BRIGHT is ANDed with BMASK, MIXEN with MMASK, bits 15 to 10 pass. -/
def Obligations.MasksApplyToBrightAndMixen : Prop :=
  ∀ (r : Regs) (l : Fin 8) (a : Word),
    (maskAttr r l a).extractLsb' 0 8 = a.extractLsb' 0 8 &&& lyrBmask r l ∧
    (maskAttr r l a).extractLsb' 8 2 = a.extractLsb' 8 2 &&& lyrMmask r l ∧
    (maskAttr r l a).extractLsb' 10 6 = a.extractLsb' 10 6

/-- R190, R191: shadow application toggles bit 12 of the attribute exactly for an eligible pixel of a layer with SHEN whose group's
table has the entry at its effective priority; color and other bits stay; the background is never changed. SH, SG and SE are bits 12, 14:13 and 15 (R88). -/
def Obligations.ShadowTogglesOnlySh : Prop :=
  ∀ (s : State) (c : Candidate),
    (attrSh c.attr = c.attr.getLsbD 12 ∧ attrSg c.attr = c.attr.extractLsb' 13 2 ∧ attrSe c.attr = c.attr.getLsbD 15) ∧
    (applyShadow s c).color = c.color ∧ (applyShadow s c).attr &&& 0xEFFF = c.attr &&& 0xEFFF ∧
    (c.source = none → applyShadow s c = ⟨c.color, c.attr⟩) ∧
    ∀ l pri, c.source = some (l, pri) →
      (attrSh (applyShadow s c).attr = (attrSh c.attr ^^
        (lyrShen s.regs l && attrSe c.attr &&
          ((attrSg c.attr == 0 && shtEntry s 0 pri) || (attrSg c.attr == 1 && shtEntry s 1 pri) ||
           (attrSg c.attr == 2 && shtEntry s 2 pri)))))

/-- R192, R196: the shadow table of each of the four modes, 0 disabled, 1 greater-or-equal, 2 equal, 3 less-or-equal, at every
threshold and at the thresholds R192 and R196 name, and that a write of SHD_CTRL(n) gives SHT[n] that table. -/
def Obligations.ShadowTableThresholds : Prop :=
  ∀ (v : Word) (i : Byte),
    let mode := v.extractLsb' 8 2
    let thr := v.extractLsb' 0 8
    let entry := (computeSht v).getD i.toNat false
    (mode = 0 → entry = false) ∧
    (mode = 1 → (entry = true ↔ thr ≤ i) ∧ (thr = 0 → entry = true) ∧ (thr = 255 → (entry = true ↔ i = 255))) ∧
    (mode = 2 → (entry = true ↔ i = thr)) ∧
    (mode = 3 → (entry = true ↔ i ≤ thr) ∧ (thr = 255 → entry = true) ∧ (thr = 0 → (entry = true ↔ i = 0))) ∧
    ∀ (s : State) (n : Fin 3), ∃ t, exec (.regWr (regAddr (.shdCtrl n)) v) s = .next t ∧ shtEntry t n i = entry

/-- R181, R182, R188 with R37: layer L's pixel is the sprite planes' element for L = 4 and the layer port's at the screen coordinate
otherwise; a layer is visible iff DISP is set and its pen bits, the low 4 + min(BPP, 4) bits of its color, or SH are not all 0;
its candidate has the color with BANK added in units of 256 mod 65536, the masked attribute and the key of the effective priority;
the background candidate has key 2048, no bank, no mask and no layer (R185). That a table holds its first listed value of an index,
else its fill, is the model's choice (notes/assumptions/8.md). -/
def Obligations.LayerPixelsAndCandidates : Prop :=
  ∀ (s : State) (l : Fin 8) (v : Pixel) (x y sx sy : Nat),
    let port := fun f : LayerInputs → Table Pixel => tableGet (f s.layers) (1024 * sy + sx)
    (layerPixel s 0 x y sx sy = port (·.gen1) ∧ layerPixel s 1 x y sx sy = port (·.gen2) ∧
      layerPixel s 2 x y sx sy = port (·.gen3) ∧ layerPixel s 3 x y sx sy = port (·.gen4) ∧
      layerPixel s 4 x y sx sy = ⟨planeRead s.sprC x y, planeRead s.sprA x y⟩ ∧
      layerPixel s 5 x y sx sy = port (·.aux1) ∧ layerPixel s 6 x y sx sy = port (·.aux2) ∧
      layerPixel s 7 x y sx sy = port (·.aux3)) ∧
    (layerVisible s.regs l v = true ↔ s.regs.lyrCol[l].getLsbD 12 = true ∧
      (v.color.toNat % 2 ^ (4 + min (s.regs.lyrCol[l].extractLsb' 8 3).toNat 4) ≠ 0 ∨ v.attr.getLsbD 12 = true)) ∧
    (layerCandidate s.regs l v).color.toNat =
      (v.color.toNat + 256 * (s.regs.lyrCol[l].extractLsb' 0 8).toNat) % 65536 ∧
    (layerCandidate s.regs l v).attr = maskAttr s.regs l v.attr ∧
    (layerCandidate s.regs l v).key = layerKey s.regs l (effectivePriority s.regs l v.color) ∧
    (layerCandidate s.regs l v).source = some (l, effectivePriority s.regs l v.color) ∧
    background v = { color := v.color, attr := v.attr, key := 2048, source := none } ∧
    ∀ (fill : Pixel) (cells : List (Nat × Pixel)) (j k : Nat), tableGet ⟨fill, []⟩ k = fill ∧
      tableGet ⟨fill, (k, v) :: cells⟩ k = v ∧ (j ≠ k → tableGet ⟨fill, (k, v) :: cells⟩ j = tableGet ⟨fill, cells⟩ j)
end

