-- ==== Sys2Proof/Laws/State.lean ====
section
/-! SUPPORT. The small lemmas of the state: every field after every named update, true by definition, so that no
later proof unfolds a record update. -/

namespace Sys2Proof.Machine

/-! ### respond -/

section
variable (s : State) (v : Word)

@[simp] theorem respond_regs : (respond s v).regs = s.regs := rfl
@[simp] theorem respond_snap : (respond s v).snap = s.snap := rfl
@[simp] theorem respond_resets : (respond s v).resets = s.resets := rfl
@[simp] theorem respond_sprC : (respond s v).sprC = s.sprC := rfl
@[simp] theorem respond_sprA : (respond s v).sprA = s.sprA := rfl
@[simp] theorem respond_frC : (respond s v).frC = s.frC := rfl
@[simp] theorem respond_frA : (respond s v).frA = s.frA := rfl
@[simp] theorem respond_bkC : (respond s v).bkC = s.bkC := rfl
@[simp] theorem respond_bkA : (respond s v).bkA = s.bkA := rfl
@[simp] theorem respond_allocW : (respond s v).allocW = s.allocW := rfl
@[simp] theorem respond_allocH : (respond s v).allocH = s.allocH := rfl
@[simp] theorem respond_sht : (respond s v).sht = s.sht := rfl
@[simp] theorem respond_diag : (respond s v).diag = s.diag := rfl
@[simp] theorem respond_response : (respond s v).response = v := rfl
@[simp] theorem respond_port : (respond s v).port = s.port := rfl
@[simp] theorem respond_layers : (respond s v).layers = s.layers := rfl
@[simp] theorem respond_pixelSlot : (respond s v).pixelSlot = s.pixelSlot := rfl
@[simp] theorem respond_cfg : (respond s v).cfg = s.cfg := rfl

end

/-! ### snapWrite -/

section
variable (s : State) (a : Nat) (v : Word)

@[simp] theorem snapWrite_regs : (snapWrite s a v).regs = s.regs := rfl
@[simp] theorem snapWrite_snap : (snapWrite s a v).snap = memInsert s.snap a v := rfl
@[simp] theorem snapWrite_resets : (snapWrite s a v).resets = s.resets := rfl
@[simp] theorem snapWrite_sprC : (snapWrite s a v).sprC = s.sprC := rfl
@[simp] theorem snapWrite_sprA : (snapWrite s a v).sprA = s.sprA := rfl
@[simp] theorem snapWrite_frC : (snapWrite s a v).frC = s.frC := rfl
@[simp] theorem snapWrite_frA : (snapWrite s a v).frA = s.frA := rfl
@[simp] theorem snapWrite_bkC : (snapWrite s a v).bkC = s.bkC := rfl
@[simp] theorem snapWrite_bkA : (snapWrite s a v).bkA = s.bkA := rfl
@[simp] theorem snapWrite_allocW : (snapWrite s a v).allocW = s.allocW := rfl
@[simp] theorem snapWrite_allocH : (snapWrite s a v).allocH = s.allocH := rfl
@[simp] theorem snapWrite_sht : (snapWrite s a v).sht = s.sht := rfl
@[simp] theorem snapWrite_diag : (snapWrite s a v).diag = s.diag := rfl
@[simp] theorem snapWrite_response : (snapWrite s a v).response = s.response := rfl
@[simp] theorem snapWrite_port : (snapWrite s a v).port = s.port := rfl
@[simp] theorem snapWrite_layers : (snapWrite s a v).layers = s.layers := rfl
@[simp] theorem snapWrite_pixelSlot : (snapWrite s a v).pixelSlot = s.pixelSlot := rfl
@[simp] theorem snapWrite_cfg : (snapWrite s a v).cfg = s.cfg := rfl

end

/-! ### paintElement -/

section
variable (s : State) (x y : Nat) (v : Pixel)

@[simp] theorem paintElement_regs : (paintElement s x y v).regs = s.regs := rfl
@[simp] theorem paintElement_snap : (paintElement s x y v).snap = s.snap := rfl
@[simp] theorem paintElement_resets : (paintElement s x y v).resets = s.resets := rfl
@[simp] theorem paintElement_sprC : (paintElement s x y v).sprC = planeWrite s.sprC x y v.color := rfl
@[simp] theorem paintElement_sprA : (paintElement s x y v).sprA = planeWrite s.sprA x y v.attr := rfl
@[simp] theorem paintElement_frC : (paintElement s x y v).frC = s.frC := rfl
@[simp] theorem paintElement_frA : (paintElement s x y v).frA = s.frA := rfl
@[simp] theorem paintElement_bkC : (paintElement s x y v).bkC = s.bkC := rfl
@[simp] theorem paintElement_bkA : (paintElement s x y v).bkA = s.bkA := rfl
@[simp] theorem paintElement_allocW : (paintElement s x y v).allocW = s.allocW := rfl
@[simp] theorem paintElement_allocH : (paintElement s x y v).allocH = s.allocH := rfl
@[simp] theorem paintElement_sht : (paintElement s x y v).sht = s.sht := rfl
@[simp] theorem paintElement_diag : (paintElement s x y v).diag = s.diag := rfl
@[simp] theorem paintElement_response : (paintElement s x y v).response = s.response := rfl
@[simp] theorem paintElement_port : (paintElement s x y v).port = s.port := rfl
@[simp] theorem paintElement_layers : (paintElement s x y v).layers = s.layers := rfl
@[simp] theorem paintElement_pixelSlot : (paintElement s x y v).pixelSlot = s.pixelSlot := rfl
@[simp] theorem paintElement_cfg : (paintElement s x y v).cfg = s.cfg := rfl

end

/-! ### reallocate -/

section
variable (s : State) (w h : Nat)

@[simp] theorem reallocate_regs : (reallocate s w h).regs = s.regs := rfl
@[simp] theorem reallocate_snap : (reallocate s w h).snap = s.snap := rfl
@[simp] theorem reallocate_resets : (reallocate s w h).resets = s.resets := rfl
@[simp] theorem reallocate_sprC : (reallocate s w h).sprC = [] := rfl
@[simp] theorem reallocate_sprA : (reallocate s w h).sprA = [] := rfl
@[simp] theorem reallocate_frC : (reallocate s w h).frC = [] := rfl
@[simp] theorem reallocate_frA : (reallocate s w h).frA = [] := rfl
@[simp] theorem reallocate_bkC : (reallocate s w h).bkC = [] := rfl
@[simp] theorem reallocate_bkA : (reallocate s w h).bkA = [] := rfl
@[simp] theorem reallocate_allocW : (reallocate s w h).allocW = w := rfl
@[simp] theorem reallocate_allocH : (reallocate s w h).allocH = h := rfl
@[simp] theorem reallocate_sht : (reallocate s w h).sht = s.sht := rfl
@[simp] theorem reallocate_diag : (reallocate s w h).diag = s.diag := rfl
@[simp] theorem reallocate_response : (reallocate s w h).response = s.response := rfl
@[simp] theorem reallocate_port : (reallocate s w h).port = s.port := rfl
@[simp] theorem reallocate_layers : (reallocate s w h).layers = s.layers := rfl
@[simp] theorem reallocate_pixelSlot : (reallocate s w h).pixelSlot = s.pixelSlot := rfl
@[simp] theorem reallocate_cfg : (reallocate s w h).cfg = s.cfg := rfl

end

/-! ### collide -/

section
variable (s : State) (b o n : Byte)

@[simp] theorem collide_regs :
    (collide s b o n).regs = { s.regs with sprCollisions := countUp s.regs.sprCollisions } := rfl
@[simp] theorem collide_snap : (collide s b o n).snap = s.snap := rfl
@[simp] theorem collide_resets : (collide s b o n).resets = s.resets := rfl
@[simp] theorem collide_sprC : (collide s b o n).sprC = s.sprC := rfl
@[simp] theorem collide_sprA : (collide s b o n).sprA = s.sprA := rfl
@[simp] theorem collide_frC : (collide s b o n).frC = s.frC := rfl
@[simp] theorem collide_frA : (collide s b o n).frA = s.frA := rfl
@[simp] theorem collide_bkC : (collide s b o n).bkC = s.bkC := rfl
@[simp] theorem collide_bkA : (collide s b o n).bkA = s.bkA := rfl
@[simp] theorem collide_allocW : (collide s b o n).allocW = s.allocW := rfl
@[simp] theorem collide_allocH : (collide s b o n).allocH = s.allocH := rfl
@[simp] theorem collide_sht : (collide s b o n).sht = s.sht := rfl
@[simp] theorem collide_diag : (collide s b o n).diag = s.diag ++ [⟨b, o, n⟩] := rfl
@[simp] theorem collide_response : (collide s b o n).response = s.response := rfl
@[simp] theorem collide_port : (collide s b o n).port = s.port := rfl
@[simp] theorem collide_layers : (collide s b o n).layers = s.layers := rfl
@[simp] theorem collide_pixelSlot : (collide s b o n).pixelSlot = s.pixelSlot := rfl
@[simp] theorem collide_cfg : (collide s b o n).cfg = s.cfg := rfl

end

/-! ### raiseConfigError -/

section
variable (s : State) (c : Causes)

@[simp] theorem raiseConfigError_regs :
    (raiseConfigError s c).regs = { s.regs with status := statusAfter s.regs.status c } := rfl
@[simp] theorem raiseConfigError_snap : (raiseConfigError s c).snap = s.snap := rfl
@[simp] theorem raiseConfigError_resets : (raiseConfigError s c).resets = s.resets := rfl
@[simp] theorem raiseConfigError_sprC : (raiseConfigError s c).sprC = s.sprC := rfl
@[simp] theorem raiseConfigError_sprA : (raiseConfigError s c).sprA = s.sprA := rfl
@[simp] theorem raiseConfigError_frC : (raiseConfigError s c).frC = s.frC := rfl
@[simp] theorem raiseConfigError_frA : (raiseConfigError s c).frA = s.frA := rfl
@[simp] theorem raiseConfigError_bkC : (raiseConfigError s c).bkC = s.bkC := rfl
@[simp] theorem raiseConfigError_bkA : (raiseConfigError s c).bkA = s.bkA := rfl
@[simp] theorem raiseConfigError_allocW : (raiseConfigError s c).allocW = s.allocW := rfl
@[simp] theorem raiseConfigError_allocH : (raiseConfigError s c).allocH = s.allocH := rfl
@[simp] theorem raiseConfigError_sht : (raiseConfigError s c).sht = s.sht := rfl
@[simp] theorem raiseConfigError_diag : (raiseConfigError s c).diag = s.diag := rfl
@[simp] theorem raiseConfigError_response : (raiseConfigError s c).response = 0 := rfl
@[simp] theorem raiseConfigError_port : (raiseConfigError s c).port = s.port := rfl
@[simp] theorem raiseConfigError_layers : (raiseConfigError s c).layers = s.layers := rfl
@[simp] theorem raiseConfigError_pixelSlot : (raiseConfigError s c).pixelSlot = s.pixelSlot := rfl
@[simp] theorem raiseConfigError_cfg : (raiseConfigError s c).cfg = s.cfg := rfl

end

/-! ### acceptCommand -/

section
variable (s : State) (c : HostCommand) (r : List HostCommand)

@[simp] theorem acceptCommand_regs : (acceptCommand s c r).regs = s.regs := rfl
@[simp] theorem acceptCommand_snap : (acceptCommand s c r).snap = s.snap := rfl
@[simp] theorem acceptCommand_resets : (acceptCommand s c r).resets = s.resets := rfl
@[simp] theorem acceptCommand_sprC : (acceptCommand s c r).sprC = s.sprC := rfl
@[simp] theorem acceptCommand_sprA : (acceptCommand s c r).sprA = s.sprA := rfl
@[simp] theorem acceptCommand_frC : (acceptCommand s c r).frC = s.frC := rfl
@[simp] theorem acceptCommand_frA : (acceptCommand s c r).frA = s.frA := rfl
@[simp] theorem acceptCommand_bkC : (acceptCommand s c r).bkC = s.bkC := rfl
@[simp] theorem acceptCommand_bkA : (acceptCommand s c r).bkA = s.bkA := rfl
@[simp] theorem acceptCommand_allocW : (acceptCommand s c r).allocW = s.allocW := rfl
@[simp] theorem acceptCommand_allocH : (acceptCommand s c r).allocH = s.allocH := rfl
@[simp] theorem acceptCommand_sht : (acceptCommand s c r).sht = s.sht := rfl
@[simp] theorem acceptCommand_diag : (acceptCommand s c r).diag = s.diag := rfl
@[simp] theorem acceptCommand_response : (acceptCommand s c r).response = s.response := rfl
@[simp] theorem acceptCommand_port : (acceptCommand s c r).port = r := rfl
@[simp] theorem acceptCommand_layers : (acceptCommand s c r).layers = c.layers := rfl
@[simp] theorem acceptCommand_pixelSlot : (acceptCommand s c r).pixelSlot = s.pixelSlot := rfl
@[simp] theorem acceptCommand_cfg : (acceptCommand s c r).cfg = s.cfg := rfl

end

/-! ### mixPass -/

section
variable (s : State)

@[simp] theorem mixPass_regs : (mixPass s).regs = s.regs := rfl
@[simp] theorem mixPass_snap : (mixPass s).snap = s.snap := rfl
@[simp] theorem mixPass_resets : (mixPass s).resets = s.resets := rfl
@[simp] theorem mixPass_sprC : (mixPass s).sprC = s.sprC := rfl
@[simp] theorem mixPass_sprA : (mixPass s).sprA = s.sprA := rfl
@[simp] theorem mixPass_frC : (mixPass s).frC = planeOf s.allocW s.allocH fun x y => (mixPixel s x y).1.color := rfl
@[simp] theorem mixPass_frA : (mixPass s).frA = planeOf s.allocW s.allocH fun x y => (mixPixel s x y).1.attr := rfl
@[simp] theorem mixPass_bkC : (mixPass s).bkC = planeOf s.allocW s.allocH fun x y => (mixPixel s x y).2.color := rfl
@[simp] theorem mixPass_bkA : (mixPass s).bkA = planeOf s.allocW s.allocH fun x y => (mixPixel s x y).2.attr := rfl
@[simp] theorem mixPass_allocW : (mixPass s).allocW = s.allocW := rfl
@[simp] theorem mixPass_allocH : (mixPass s).allocH = s.allocH := rfl
@[simp] theorem mixPass_sht : (mixPass s).sht = s.sht := rfl
@[simp] theorem mixPass_diag : (mixPass s).diag = s.diag := rfl
@[simp] theorem mixPass_response : (mixPass s).response = s.response := rfl
@[simp] theorem mixPass_port : (mixPass s).port = s.port := rfl
@[simp] theorem mixPass_layers : (mixPass s).layers = s.layers := rfl
@[simp] theorem mixPass_pixelSlot : (mixPass s).pixelSlot = s.pixelSlot := rfl
@[simp] theorem mixPass_cfg : (mixPass s).cfg = s.cfg := rfl

end

/-! ### resetState -/

section
variable (s : State)

@[simp] theorem resetState_regs : (resetState s).regs = Regs.zero := rfl
@[simp] theorem resetState_snap : (resetState s).snap = [] := rfl
@[simp] theorem resetState_resets : (resetState s).resets = s.resets + 1 := rfl
@[simp] theorem resetState_sprC : (resetState s).sprC = [] := rfl
@[simp] theorem resetState_sprA : (resetState s).sprA = [] := rfl
@[simp] theorem resetState_frC : (resetState s).frC = [] := rfl
@[simp] theorem resetState_frA : (resetState s).frA = [] := rfl
@[simp] theorem resetState_bkC : (resetState s).bkC = [] := rfl
@[simp] theorem resetState_bkA : (resetState s).bkA = [] := rfl
@[simp] theorem resetState_allocW : (resetState s).allocW = 0 := rfl
@[simp] theorem resetState_allocH : (resetState s).allocH = 0 := rfl
@[simp] theorem resetState_sht : (resetState s).sht = Vector.replicate 3 (computeSht 0) := rfl
@[simp] theorem resetState_diag : (resetState s).diag = [] := rfl
@[simp] theorem resetState_response : (resetState s).response = s.response := rfl
@[simp] theorem resetState_port : (resetState s).port = s.port := rfl
@[simp] theorem resetState_layers : (resetState s).layers = s.layers := rfl
@[simp] theorem resetState_pixelSlot : (resetState s).pixelSlot = s.pixelSlot := rfl
@[simp] theorem resetState_cfg : (resetState s).cfg = s.cfg := rfl

end

end Sys2Proof.Machine
end

