-- ==== Sys2Proof/Laws/Memory.lean ====
section
/-! SUPPORT. The laws of the word memories: a read after a write, the canonical form kept by every operation, and the
elements of a computed plane. -/

namespace Sys2Proof.Machine

/-! ### Reading after writing -/

@[simp] theorem memLookup_nil (k : Nat) : memLookup [] k = none := rfl

theorem memLookup_cons (a : Nat) (v : Word) (m : WordMem) (k : Nat) :
    memLookup ((a, v) :: m) k = if a = k then some v else memLookup m k := rfl

@[simp] theorem memLookup_insert_same (m : WordMem) (k : Nat) (v : Word) :
    memLookup (memInsert m k v) k = some v := by
  induction m with
  | nil => simp [memInsert, memLookup]
  | cons e m ih =>
    obtain ⟨a, w⟩ := e
    by_cases h : k < a
    · simp [memInsert, h, memLookup]
    · by_cases h' : k = a
      · simp [memInsert, h', memLookup]
      · simp [memInsert, h, h', memLookup, ih, Ne.symm h']

theorem memLookup_insert_other (m : WordMem) {j k : Nat} (v : Word) (hjk : j ≠ k) :
    memLookup (memInsert m k v) j = memLookup m j := by
  induction m with
  | nil => simp [memInsert, memLookup, Ne.symm hjk]
  | cons e m ih =>
    obtain ⟨a, w⟩ := e
    by_cases h : k < a
    · simp [memInsert, h, memLookup, Ne.symm hjk]
    · by_cases h' : k = a
      · subst h'; simp [memInsert, memLookup, Ne.symm hjk]
      · simp [memInsert, h, h', memLookup, ih]

@[simp] theorem memLookup_erase_same (m : WordMem) (k : Nat) : memLookup (memErase m k) k = none := by
  induction m with
  | nil => rfl
  | cons e m ih =>
    obtain ⟨a, w⟩ := e
    by_cases h : a = k <;> simp [memErase, h, memLookup, ih]

theorem memLookup_erase_other (m : WordMem) {j k : Nat} (hjk : j ≠ k) :
    memLookup (memErase m k) j = memLookup m j := by
  induction m with
  | nil => rfl
  | cons e m ih =>
    obtain ⟨a, w⟩ := e
    by_cases h : a = k
    · subst h; simp [memErase, memLookup, ih, Ne.symm hjk]
    · simp [memErase, h, memLookup, ih]

theorem snapRead_snapWrite_same (s : State) (a : Nat) (v : Word) : snapRead (snapWrite s a v) a = v := by
  simp [snapRead]

theorem snapRead_snapWrite_other (s : State) {a b : Nat} (v : Word) (h : b ≠ a) :
    snapRead (snapWrite s a v) b = snapRead s b := by
  simp [snapRead, memLookup_insert_other _ _ h]

theorem snapRead_congr {s t : State} (hs : t.snap = s.snap) (hr : t.resets = s.resets) (a : Nat) :
    snapRead t a = snapRead s a := by
  simp [snapRead, hs, hr]

theorem planeKey_inj {x y x' y' : Nat} (hx : x < 1024) (hx' : x' < 1024) :
    planeKey x y = planeKey x' y' ↔ x = x' ∧ y = y' := by
  unfold planeKey; omega

@[simp] theorem planeRead_nil (x y : Nat) : planeRead [] x y = 0 := rfl

@[simp] theorem planeRead_planeWrite_same (p : WordMem) (x y : Nat) (v : Word) :
    planeRead (planeWrite p x y v) x y = v := by
  unfold planeRead planeWrite
  split
  · simp_all
  · rw [memLookup_insert_same, Option.getD_some]

theorem planeRead_planeWrite_other (p : WordMem) {x y x' y' : Nat} (v : Word)
    (h : planeKey x' y' ≠ planeKey x y) :
    planeRead (planeWrite p x y v) x' y' = planeRead p x' y' := by
  unfold planeRead planeWrite
  split
  · rw [memLookup_erase_other _ h]
  · rw [memLookup_insert_other _ _ h]

/-! ### The canonical form -/

theorem memRising_iff (m : WordMem) : memRising m = true ↔ m.Pairwise fun e f => e.1 < f.1 := by
  induction m with
  | nil => simp [memRising]
  | cons e m ih =>
    obtain ⟨a, v⟩ := e
    cases m with
    | nil => simp [memRising]
    | cons f m =>
      obtain ⟨b, w⟩ := f
      simp only [memRising, Bool.and_eq_true, decide_eq_true_eq, ih]
      constructor
      · rintro ⟨hab, hp⟩
        refine List.pairwise_cons.2 ⟨?_, hp⟩
        intro g hg
        rcases List.mem_cons.1 hg with rfl | hg
        · exact hab
        · exact hab.trans ((List.pairwise_cons.1 hp).1 g hg)
      · intro hp
        exact ⟨(List.pairwise_cons.1 hp).1 (b, w) List.mem_cons_self, (List.pairwise_cons.1 hp).2⟩

theorem mem_memInsert {m : WordMem} {k : Nat} {v : Word} {e : Nat × Word} (h : e ∈ memInsert m k v) :
    e = (k, v) ∨ e ∈ m := by
  induction m with
  | nil => simpa [memInsert] using h
  | cons f m ih =>
    obtain ⟨a, w⟩ := f
    unfold memInsert at h
    split at h
    · rcases List.mem_cons.1 h with h | h
      · exact .inl h
      · exact .inr h
    · split at h
      · rcases List.mem_cons.1 h with h | h
        · exact .inl h
        · exact .inr (List.mem_cons_of_mem _ h)
      · rcases List.mem_cons.1 h with h | h
        · exact .inr (h ▸ List.mem_cons_self)
        · exact (ih h).imp id (List.mem_cons_of_mem _)

theorem mem_memErase {m : WordMem} {k : Nat} {e : Nat × Word} (h : e ∈ memErase m k) : e ∈ m := by
  induction m with
  | nil => exact h
  | cons f m ih =>
    obtain ⟨a, w⟩ := f
    unfold memErase at h
    split at h
    · exact List.mem_cons_of_mem _ (ih h)
    · rcases List.mem_cons.1 h with h | h
      · exact h ▸ List.mem_cons_self
      · exact List.mem_cons_of_mem _ (ih h)

theorem memRising_insert {m : WordMem} (k : Nat) (v : Word) (h : memRising m = true) :
    memRising (memInsert m k v) = true := by
  rw [memRising_iff] at h ⊢
  induction m with
  | nil => simp [memInsert]
  | cons f m ih =>
    obtain ⟨a, w⟩ := f
    obtain ⟨ha, hm⟩ := List.pairwise_cons.1 h
    unfold memInsert
    split
    · rename_i hk
      refine List.pairwise_cons.2 ⟨fun g hg => ?_, h⟩
      rcases List.mem_cons.1 hg with rfl | hg
      · exact hk
      · exact hk.trans (ha g hg)
    · split
      · rename_i hk
        subst hk
        exact List.pairwise_cons.2 ⟨ha, hm⟩
      · rename_i hk hk'
        refine List.pairwise_cons.2 ⟨fun g hg => ?_, ih hm⟩
        rcases mem_memInsert hg with rfl | hg
        · simp only; omega
        · exact ha g hg

theorem memRising_erase {m : WordMem} (k : Nat) (h : memRising m = true) : memRising (memErase m k) = true := by
  rw [memRising_iff] at h ⊢
  induction m with
  | nil => exact h
  | cons f m ih =>
    obtain ⟨a, w⟩ := f
    obtain ⟨ha, hm⟩ := List.pairwise_cons.1 h
    unfold memErase
    split
    · exact ih hm
    · exact List.pairwise_cons.2 ⟨fun g hg => ha g (mem_memErase hg), ih hm⟩

theorem planeWf_iff (w h : Nat) (p : WordMem) :
    planeWf w h p = true ↔
      memRising p = true ∧ ∀ e ∈ p, e.1 % 1024 < w ∧ e.1 / 1024 < h ∧ e.2 ≠ 0 := by
  simp [planeWf, and_assoc]

@[simp] theorem planeWf_nil (w h : Nat) : planeWf w h [] = true := rfl

/-- Writing an element of the plane keeps the canonical form. -/
theorem planeWf_planeWrite {w h : Nat} {p : WordMem} {x y : Nat} (v : Word) (hp : planeWf w h p = true)
    (hx : x < w) (hx' : x < 1024) (hy : y < h) : planeWf w h (planeWrite p x y v) = true := by
  rw [planeWf_iff] at hp ⊢
  obtain ⟨hr, he⟩ := hp
  unfold planeWrite
  split
  · exact ⟨memRising_erase _ hr, fun e h => he e (mem_memErase h)⟩
  · rename_i hv
    refine ⟨memRising_insert _ _ hr, fun e h => ?_⟩
    rcases mem_memInsert h with rfl | h
    · unfold planeKey
      refine ⟨?_, ?_, hv⟩ <;> simp only <;> omega
    · exact he e h

/-- Writing a snapshot word keeps the canonical form of SNAP. -/
theorem snapRising_insert {m : WordMem} (a : Addr) (v : Word)
    (h : (memRising m && m.all fun e => decide (e.1 < 2048)) = true) :
    (memRising (memInsert m a.toNat v) && (memInsert m a.toNat v).all fun e => decide (e.1 < 2048)) = true := by
  simp only [Bool.and_eq_true, List.all_eq_true, decide_eq_true_eq] at h ⊢
  refine ⟨memRising_insert _ _ h.1, fun e he => ?_⟩
  rcases mem_memInsert he with rfl | he
  · exact a.isLt
  · exact h.2 e he

/-! ### Computed planes -/

theorem mem_planeElements {w h : Nat} {e : Nat × Nat} :
    e ∈ planeElements w h ↔ e.1 < w ∧ e.2 < h := by
  obtain ⟨x, y⟩ := e
  simp [planeElements, and_comm]

theorem planeElements_rising {w : Nat} (h : Nat) (hw : w ≤ 1024) :
    (planeElements w h).Pairwise fun e f => planeKey e.1 e.2 < planeKey f.1 f.2 := by
  unfold planeElements
  rw [List.pairwise_flatMap]
  refine ⟨fun y _ => ?_, ?_⟩
  · rw [List.pairwise_map]
    exact List.pairwise_lt_range.imp fun {a b} hab => by unfold planeKey; simp only; omega
  · refine List.pairwise_lt_range.imp fun {y y'} hyy e he f hf => ?_
    simp only [List.mem_map, List.mem_range] at he hf
    obtain ⟨x, hx, rfl⟩ := he
    obtain ⟨x', hx', rfl⟩ := hf
    unfold planeKey
    simp only
    omega

/-- A computed plane is in canonical form. -/
theorem planeWf_planeOf {w : Nat} (h : Nat) (f : Nat → Nat → Word) (hw : w ≤ 1024) :
    planeWf w h (planeOf w h f) = true := by
  rw [planeWf_iff, memRising_iff]
  constructor
  · unfold planeOf
    rw [List.pairwise_filterMap]
    refine (planeElements_rising h hw).imp fun {e g} heg a ha b hb => ?_
    split at ha <;> split at hb <;> simp_all
    obtain rfl := ha
    obtain rfl := hb
    exact heg
  · intro e he
    unfold planeOf at he
    obtain ⟨g, hg, hge⟩ := List.mem_filterMap.1 he
    obtain ⟨hx, hy⟩ := mem_planeElements.1 hg
    split at hge
    · cases hge
    · rename_i hv
      obtain rfl := Option.some.inj hge
      unfold planeKey
      refine ⟨?_, ?_, hv⟩ <;> simp only <;> omega

/-- The listed elements of a computed plane, among the elements `l`. -/
abbrev planeCells (f : Nat → Nat → Word) (l : List (Nat × Nat)) : WordMem :=
  l.filterMap fun e => if f e.1 e.2 = 0 then none else some (planeKey e.1 e.2, f e.1 e.2)

theorem planeCells_cons_zero {f : Nat → Nat → Word} {a b : Nat} (l : List (Nat × Nat)) (hf : f a b = 0) :
    planeCells f ((a, b) :: l) = planeCells f l :=
  List.filterMap_cons_none (if_pos hf)

theorem planeCells_cons {f : Nat → Nat → Word} {a b : Nat} (l : List (Nat × Nat)) (hf : f a b ≠ 0) :
    planeCells f ((a, b) :: l) = (planeKey a b, f a b) :: planeCells f l :=
  List.filterMap_cons_some (if_neg hf)

theorem memLookup_planeCells_absent (f : Nat → Nat → Word) (l : List (Nat × Nat)) {x y : Nat} (hx : x < 1024)
    (hl : ∀ e ∈ l, e.1 < 1024) (hm : (x, y) ∉ l) : memLookup (planeCells f l) (planeKey x y) = none := by
  induction l with
  | nil => rfl
  | cons g l ih =>
    obtain ⟨a, b⟩ := g
    have ih' := ih (fun e he => hl e (List.mem_cons_of_mem _ he)) fun h => hm (List.mem_cons_of_mem _ h)
    have hk : planeKey a b ≠ planeKey x y := fun h => by
      obtain ⟨rfl, rfl⟩ := (planeKey_inj (hl (a, b) List.mem_cons_self) hx).1 h
      exact hm List.mem_cons_self
    by_cases hf : f a b = 0
    · rw [planeCells_cons_zero _ hf, ih']
    · rw [planeCells_cons _ hf, memLookup_cons, if_neg hk, ih']

theorem memLookup_planeCells (f : Nat → Nat → Word) (l : List (Nat × Nat)) {x y : Nat} (hx : x < 1024)
    (hl : ∀ e ∈ l, e.1 < 1024) (hm : (x, y) ∈ l) :
    (memLookup (planeCells f l) (planeKey x y)).getD 0 = f x y := by
  induction l with
  | nil => cases hm
  | cons g l ih =>
    obtain ⟨a, b⟩ := g
    have hl' : ∀ e ∈ l, e.1 < 1024 := fun e he => hl e (List.mem_cons_of_mem _ he)
    by_cases hk : planeKey a b = planeKey x y
    · obtain ⟨rfl, rfl⟩ := (planeKey_inj (hl (a, b) List.mem_cons_self) hx).1 hk
      by_cases hf : f a b = 0
      · rw [planeCells_cons_zero _ hf]
        by_cases hm' : (a, b) ∈ l
        · exact ih hl' hm'
        · rw [memLookup_planeCells_absent f l hx hl' hm', hf, Option.getD_none]
      · rw [planeCells_cons _ hf, memLookup_cons, if_pos rfl, Option.getD_some]
    · have hm' : (x, y) ∈ l := by
        rcases List.mem_cons.1 hm with h | h
        · obtain ⟨rfl, rfl⟩ := Prod.mk.inj h
          exact absurd rfl hk
        · exact h
      by_cases hf : f a b = 0
      · rw [planeCells_cons_zero _ hf, ih hl' hm']
      · rw [planeCells_cons _ hf, memLookup_cons, if_neg hk, ih hl' hm']

/-- An element of a computed plane is what was computed for it. -/
theorem planeRead_planeOf {w h : Nat} (f : Nat → Nat → Word) {x y : Nat} (hw : w ≤ 1024) (hx : x < w) (hy : y < h) :
    planeRead (planeOf w h f) x y = f x y := by
  exact memLookup_planeCells f _ (by omega) (fun e he => by have := (mem_planeElements.1 he).1; omega)
    (mem_planeElements.2 ⟨hx, hy⟩)

/-! ### Memories of the machine -/

/-- The canonical form of every memory, part by part. -/
theorem memoryWf_iff (s : State) :
    Memory.wf s = true ↔
      (memRising s.snap && s.snap.all fun e => decide (e.1 < 2048)) = true ∧
      planeWf s.allocW s.allocH s.sprC = true ∧ planeWf s.allocW s.allocH s.sprA = true ∧
      planeWf s.allocW s.allocH s.frC = true ∧ planeWf s.allocW s.allocH s.frA = true ∧
      planeWf s.allocW s.allocH s.bkC = true ∧ planeWf s.allocW s.allocH s.bkA = true := by
  unfold Memory.wf
  rw [Bool.and_eq_true, Bool.and_eq_true, Bool.and_eq_true, Bool.and_eq_true, Bool.and_eq_true, Bool.and_eq_true]
  simp only [and_assoc]

/-- The canonical form depends on the memories and the allocation alone. -/
theorem memoryWf_congr {s t : State} (h1 : t.snap = s.snap) (h2 : t.allocW = s.allocW) (h3 : t.allocH = s.allocH)
    (h4 : t.sprC = s.sprC) (h5 : t.sprA = s.sprA) (h6 : t.frC = s.frC) (h7 : t.frA = s.frA) (h8 : t.bkC = s.bkC)
    (h9 : t.bkA = s.bkA) : Memory.wf t = Memory.wf s := by
  unfold Memory.wf
  rw [h1, h2, h3, h4, h5, h6, h7, h8, h9]

/-- SNAP_WR keeps the canonical form. -/
theorem memoryWf_snapWrite {s : State} (a : Addr) (v : Word) (h : Memory.wf s = true) :
    Memory.wf (snapWrite s a.toNat v) = true := by
  rw [memoryWf_iff] at h ⊢
  exact ⟨snapRising_insert a v h.1, h.2⟩

/-- A written element of the sprite planes keeps the canonical form. -/
theorem memoryWf_paintElement {s : State} {x y : Nat} (v : Pixel) (h : Memory.wf s = true)
    (hin : inPlanes s x y = true) (hx : x < 1024) : Memory.wf (paintElement s x y v) = true := by
  rw [memoryWf_iff] at h ⊢
  simp only [inPlanes, Bool.and_eq_true, decide_eq_true_eq] at hin
  exact ⟨h.1, planeWf_planeWrite _ h.2.1 hin.1 hx hin.2, planeWf_planeWrite _ h.2.2.1 hin.1 hx hin.2, h.2.2.2⟩

/-- A reallocation keeps the canonical form. -/
theorem memoryWf_reallocate {s : State} (w h : Nat) (hm : Memory.wf s = true) :
    Memory.wf (reallocate s w h) = true := by
  rw [memoryWf_iff] at hm ⊢
  exact ⟨hm.1, rfl, rfl, rfl, rfl, rfl, rfl⟩

/-- The start of a pass keeps the canonical form. -/
theorem memoryWf_passStart {s : State} (h : Memory.wf s = true) : Memory.wf (passStart s) = true := by
  unfold passStart
  split
  · exact h
  · exact memoryWf_reallocate _ _ h

/-- The four output planes of a MIX pass are in canonical form. -/
theorem memoryWf_mixPass {s : State} (h : Memory.wf s = true) (hw : s.allocW ≤ 1024) :
    Memory.wf (mixPass s) = true := by
  rw [memoryWf_iff] at h ⊢
  refine ⟨h.1, h.2.1, h.2.2.1, ?_, ?_, ?_, ?_⟩ <;>
    simp only [mixPass_frC, mixPass_frA, mixPass_bkC, mixPass_bkA, mixPass_allocW, mixPass_allocH] <;>
    exact planeWf_planeOf s.allocH _ hw

/-- RESET leaves canonical memories. -/
theorem memoryWf_resetState (s : State) : Memory.wf (resetState s) = true := rfl

/-- The memories after power-on are in canonical form. -/
theorem memoryWf_reset : Memory.wf State.reset = true := rfl

end Sys2Proof.Machine
end

