-- ==== Sys2Proof/Laws/Ops.lean ====
section
/-! SUPPORT. For each shared operation, once, everything it can do: register reads and writes, the start of a pass,
a pixel operation's end, bucketing, the passes, what is fetched, and a step. -/

namespace Sys2Proof.Machine

/-! ### Registers -/

/-- A register reads what was stored in it. -/
@[simp] theorem regGet_regSet_same (r : Regs) (v : Word) (x : Reg) : regGet (regSet r v x) x = v := by
  cases x <;> simp [regGet, regSet]

/-- Storing in one register leaves every other register alone. -/
theorem regGet_regSet_other (r : Regs) (v : Word) {x y : Reg} (h : y ≠ x) :
    regGet (regSet r v x) y = regGet r y := by
  cases x <;> cases y <;> simp_all [regGet, regSet, Vector.getElem_set] <;>
    (intro hv; exact absurd (Fin.ext hv).symm h)

/-- The registers after a store. -/
@[simp] theorem regStore_regs (s : State) (x : Reg) (v : Word) : (regStore s x v).regs = regSet s.regs v x := by
  cases x <;> rfl

/-- A store of SHD_CTRL(n) recomputes SHT[n] and no other table (R42). -/
theorem regStore_sht (s : State) (x : Reg) (v : Word) :
    (regStore s x v).sht = match x with
      | .shdCtrl n => s.sht.set n (computeSht v)
      | _ => s.sht := by
  cases x <;> rfl

/-- A store changes the registers and the shadow tables only. -/
theorem regStore_frame (s : State) (x : Reg) (v : Word) :
    regStore s x v = { s with regs := (regStore s x v).regs, sht := (regStore s x v).sht } := by
  cases x <;> rfl

/-- What a register write can do: store a masked value in an RW register, or nothing (R223). -/
theorem regWrite_cases (s : State) (a : Addr) (v : Word) :
    (∃ x, regOfAddr a = some x ∧ regWritable x = true ∧ regWrite s a v = regStore s x (v &&& fieldMask x)) ∨
    (regWrite s a v = s ∧ ∀ x, regOfAddr a = some x → regWritable x = false) := by
  unfold regWrite
  cases h : regOfAddr a with
  | none => exact .inr ⟨rfl, fun x hx => by cases hx⟩
  | some x =>
    cases hw : regWritable x with
    | true => exact .inl ⟨x, rfl, hw, by simp [hw]⟩
    | false => exact .inr ⟨by simp [hw], fun y hy => by cases hy; exact hw⟩

/-- A register write changes the registers and the shadow tables only. -/
theorem regWrite_frame (s : State) (a : Addr) (v : Word) :
    regWrite s a v = { s with regs := (regWrite s a v).regs, sht := (regWrite s a v).sht } := by
  rcases regWrite_cases s a v with ⟨x, -, -, h⟩ | ⟨h, -⟩
  · rw [h]; exact regStore_frame s x _
  · rw [h]

/-! ### The start of a pass -/

/-- What the start of a pass can do (R227). -/
theorem passStart_cases (s : State) :
    (passStart s = s ∧ rectW s.regs = s.allocW ∧ rectH s.regs = s.allocH) ∨
    (passStart s = reallocate s (rectW s.regs) (rectH s.regs) ∧
      ¬(rectW s.regs = s.allocW ∧ rectH s.regs = s.allocH)) := by
  unfold passStart
  split
  · exact .inl ⟨rfl, ‹_›⟩
  · exact .inr ⟨rfl, ‹_›⟩

/-- After the start of a pass the planes have the rectangle's size (R61). -/
@[simp] theorem passStart_allocW (s : State) : (passStart s).allocW = rectW s.regs := by
  rcases passStart_cases s with ⟨h, hw, -⟩ | ⟨h, -⟩ <;> rw [h]
  · exact hw.symm
  · rfl

@[simp] theorem passStart_allocH (s : State) : (passStart s).allocH = rectH s.regs := by
  rcases passStart_cases s with ⟨h, -, hh⟩ | ⟨h, -⟩ <;> rw [h]
  · exact hh.symm
  · rfl

/-- The start of a pass changes the planes and their size only. -/
theorem passStart_frame (s : State) :
    passStart s =
      { s with
        allocW := (passStart s).allocW, allocH := (passStart s).allocH
        sprC := (passStart s).sprC, sprA := (passStart s).sprA, frC := (passStart s).frC
        frA := (passStart s).frA, bkC := (passStart s).bkC, bkA := (passStart s).bkA } := by
  rcases passStart_cases s with ⟨h, -⟩ | ⟨h, -⟩
  · rw [h]
  · rw [h]; rfl

@[simp] theorem passStart_regs (s : State) : (passStart s).regs = s.regs := by rw [passStart_frame]

@[simp] theorem passStart_snap (s : State) : (passStart s).snap = s.snap := by rw [passStart_frame]

@[simp] theorem passStart_resets (s : State) : (passStart s).resets = s.resets := by rw [passStart_frame]

@[simp] theorem passStart_sht (s : State) : (passStart s).sht = s.sht := by rw [passStart_frame]

@[simp] theorem passStart_diag (s : State) : (passStart s).diag = s.diag := by rw [passStart_frame]

@[simp] theorem passStart_layers (s : State) : (passStart s).layers = s.layers := by rw [passStart_frame]

@[simp] theorem passStart_port (s : State) : (passStart s).port = s.port := by rw [passStart_frame]

@[simp] theorem passStart_pixelSlot (s : State) : (passStart s).pixelSlot = s.pixelSlot := by rw [passStart_frame]

@[simp] theorem passStart_cfg (s : State) : (passStart s).cfg = s.cfg := by rw [passStart_frame]

@[simp] theorem passStart_response (s : State) : (passStart s).response = s.response := by rw [passStart_frame]

/-! ### A pixel operation's end -/

/-- What the end of a pixel operation can do: nothing, paint an existing element, or fault on an absent one. -/
theorem finishPixel_cases (s : State) (x y : Nat) (v : Option Pixel) :
    (v = none ∧ finishPixel s x y v = .next s) ∨
    (∃ px, v = some px ∧ inPlanes s x y = true ∧ finishPixel s x y v = .next (paintElement s x y px)) ∨
    (∃ px, v = some px ∧ inPlanes s x y = false ∧ finishPixel s x y v = .fault .planeElementAbsent) := by
  cases v with
  | none => exact .inl ⟨rfl, rfl⟩
  | some px =>
    cases h : inPlanes s x y with
    | true => exact .inr (.inl ⟨px, rfl, rfl, by simp [finishPixel, h]⟩)
    | false => exact .inr (.inr ⟨px, rfl, rfl, by simp [finishPixel, h]⟩)

/-! ### Bucketing -/

/-- One record's bucketing changes the count of SPR_COLLISIONS and DIAG only (R142). -/
theorem bucketRecord_frame (ts : Buckets × State) (i : Byte) :
    (bucketRecord ts i).2 =
      { ts.2 with
        regs := { ts.2.regs with sprCollisions := (bucketRecord ts i).2.regs.sprCollisions }
        diag := (bucketRecord ts i).2.diag } := by
  simp only [bucketRecord]
  split
  · simp only
    split <;> rfl
  · rfl

/-- Bucketing changes the count of SPR_COLLISIONS and DIAG only. -/
theorem foldl_bucketRecord_frame (is : List Byte) (ts : Buckets × State) :
    (is.foldl bucketRecord ts).2 =
      { ts.2 with
        regs := { ts.2.regs with sprCollisions := (is.foldl bucketRecord ts).2.regs.sprCollisions }
        diag := (is.foldl bucketRecord ts).2.diag } := by
  induction is generalizing ts with
  | nil => rfl
  | cons i is ih =>
    rw [List.foldl_cons, ih (bucketRecord ts i), bucketRecord_frame ts i]

theorem bucketing_frame (s : State) :
    (bucketing s).2 =
      { s with
        regs := { s.regs with sprCollisions := (bucketing s).2.regs.sprCollisions }
        diag := (bucketing s).2.diag } :=
  foldl_bucketRecord_frame _ _

/-! ### Drawing and mixing -/

/-- What drawing a record can do: nothing where its block is write protected, else every segment pair (R143, R144). -/
theorem drawSprite_cases (s : State) (r : SpriteRecord) (pl : SpritePlanes) :
    (writeProtected s.regs (recordBlk r) = true ∧ drawSprite s r pl = pl) ∨
    (writeProtected s.regs (recordBlk r) = false ∧
      drawSprite s r pl = (recordSegmentsY s r).foldl (fun pl gy =>
        (recordSegmentsX s r).foldl (fun pl gx => tileDraw s (paintOf s r) gx gy pl) pl) pl) := by
  unfold drawSprite
  cases writeProtected s.regs (recordBlk r)
  · exact .inr ⟨rfl, rfl⟩
  · exact .inl ⟨rfl, rfl⟩

/-- The pixels of a segment are those from its first to its last (R111). -/
theorem mem_segmentPixels {g : Segment} {p : Nat} : p ∈ segmentPixels g ↔ g.screenMin ≤ p ∧ p ≤ g.screenMax := by
  unfold segmentPixels
  rw [List.mem_range'_1]
  omega

/-- Entry i of a shadow table is ShadowBit at i (R192). -/
theorem computeSht_getD (v : Word) (i : Byte) :
    (computeSht v).getD i.toNat false = shadowBit (shdMode v) (shdThr v) i := by
  simp [computeSht, List.getD, i.isLt]

/-- The pen bits of a color at depth d are its low d bits (R92, R182). -/
theorem toNat_and_penMask (c : Word) {d : Nat} (hd : d ≤ 8) :
    (c &&& (penMask d).setWidth 16).toNat = c.toNat % 2 ^ d := by
  have hp : 2 ^ d ≤ 256 := Nat.pow_le_pow_right (by decide) hd
  have h0 : 0 < 2 ^ d := Nat.two_pow_pos d
  simp only [BitVec.toNat_and, BitVec.toNat_setWidth, penMask, BitVec.toNat_ofNat]
  rw [Nat.mod_eq_of_lt (show 2 ^ d - 1 < 2 ^ 8 by omega), Nat.mod_eq_of_lt (show 2 ^ d - 1 < 2 ^ 16 by omega),
    Nat.and_two_pow_sub_one_eq_mod]

/-! ### The passes -/

/-- A compositor pass changes the sprite planes, the count of SPR_COLLISIONS and DIAG only. -/
theorem composePass_frame (s : State) :
    composePass s =
      { s with
        regs := { s.regs with sprCollisions := (composePass s).regs.sprCollisions }
        diag := (composePass s).diag, sprC := (composePass s).sprC, sprA := (composePass s).sprA } := by
  unfold composePass
  simp only
  rw [bucketing_frame]

/-- A compositor pass changes no register but SPR_COLLISIONS. -/
theorem composePass_regGet (s : State) {x : Reg} (h : x ≠ .sprCollisions) :
    regGet (composePass s).regs x = regGet s.regs x := by
  rw [composePass_frame]
  cases x <;> first | rfl | exact absurd rfl h

/-! ### What is performed next -/

/-- A step with a tile-draw variant in its slot performs that variant. -/
theorem step_pixelSlot {s : State} {it : PixelItem} (h : s.pixelSlot = some it) :
    step s = exec (decodeTileDraw it) { s with pixelSlot := none } := by
  simp [step, fetchNext, h]

/-- A step with nothing on the port leaves the machine as it is. -/
theorem step_idle {s : State} (h : s.pixelSlot = none) (hp : s.port = []) : step s = .next s := by
  simp [step, fetchNext, h, hp]

/-- A step with a command on the port performs it. -/
theorem step_command {s : State} {c : HostCommand} {rest : List HostCommand} {i : Instr} (h : s.pixelSlot = none)
    (hp : s.port = c :: rest) (hd : decodeCommand c.word = .ok i) :
    step s = exec i (acceptCommand s c rest) := by
  simp [step, fetchNext, h, hp, hd]

/-- A step with a reserved OP on the port raises E_CMD. -/
theorem step_reserved {s : State} {c : HostCommand} {rest : List HostCommand} {e : DecodeError}
    (h : s.pixelSlot = none) (hp : s.port = c :: rest) (hd : decodeCommand c.word = .error e) :
    step s = .next (execReservedOp (acceptCommand s c rest)) := by
  simp [step, fetchNext, h, hp, hd]

/-- Everything a step can do. -/
theorem step_cases (s : State) :
    (∃ it, s.pixelSlot = some it ∧ step s = exec (decodeTileDraw it) { s with pixelSlot := none }) ∨
    (s.pixelSlot = none ∧ s.port = [] ∧ step s = .next s) ∨
    (∃ c rest i, s.pixelSlot = none ∧ s.port = c :: rest ∧ decodeCommand c.word = .ok i ∧
      step s = exec i (acceptCommand s c rest)) ∨
    (∃ c rest e, s.pixelSlot = none ∧ s.port = c :: rest ∧ decodeCommand c.word = .error e ∧
      step s = .next (execReservedOp (acceptCommand s c rest))) := by
  cases h : s.pixelSlot with
  | some it => exact .inl ⟨it, rfl, step_pixelSlot h⟩
  | none =>
    cases hp : s.port with
    | nil => exact .inr (.inl ⟨rfl, rfl, step_idle h hp⟩)
    | cons c rest =>
      cases hd : decodeCommand c.word with
      | ok i => exact .inr (.inr (.inl ⟨c, rest, i, rfl, rfl, hd, step_command h hp hd⟩))
      | error e => exact .inr (.inr (.inr ⟨c, rest, e, rfl, rfl, hd, step_reserved h hp hd⟩))

/-- What COMPOSE can do: raise its configuration errors, or run the whole pass (R225). -/
theorem execCompose_cases (s : State) :
    ((rectValid s = false ∨ s.cfg.tileRomPresent = false) ∧
      execCompose s = .next (raiseConfigError s (composeErrors s))) ∨
    (rectValid s = true ∧ s.cfg.tileRomPresent = true ∧
      execCompose s = .next (respond (composePass (passStart s)) 0)) := by
  unfold execCompose
  cases hr : rectValid s <;> cases ht : s.cfg.tileRomPresent <;> simp [causesAny, composeErrors, hr, ht]

/-- What MIX can do (R226). -/
theorem execMix_cases (s : State) :
    (rectValid s = false ∧ execMix s = .next (raiseConfigError s (mixErrors s))) ∨
    (rectValid s = true ∧ execMix s = .next (respond (mixPass (passStart s)) 0)) := by
  unfold execMix
  cases hr : rectValid s <;> simp [causesAny, mixErrors, hr]

/-- A valid rectangle has a size the planes admit (R227). -/
theorem rectValid_iff (s : State) :
    rectValid s = true ↔
      visMinX s.regs ≤ visMaxX s.regs ∧ visMinY s.regs ≤ visMaxY s.regs ∧
      rectW s.regs ≤ s.cfg.maxW ∧ rectH s.regs ≤ s.cfg.maxH := by
  simp only [rectValid, Bool.and_eq_true, decide_eq_true_eq, and_assoc]

/-! ### Runs and the errors of a step -/

/-- A run whose first step answers a next state goes on from it. -/
theorem run_succ_of_next {s t : State} (j : Nat) (h : step s = .next t) :
    Sys2Proof.core.run (j + 1) s = Sys2Proof.core.run j t := by
  have hc : Sys2Proof.core.step s = .next t := h
  simp only [Host.Core.run, hc]

/-- A run whose first step stops answers no next state. -/
theorem run_succ_of_stop {s : State} (j : Nat) (h : ∀ t, step s ≠ .next t) (t : State) :
    Sys2Proof.core.run (j + 1) s ≠ .next t := by
  cases hs : step s with
  | next u => exact absurd hs (h u)
  | fault r =>
    have hc : Sys2Proof.core.step s = .fault r := hs
    simp only [Host.Core.run, hc]
    exact nofun
  | refused r =>
    have hc : Sys2Proof.core.step s = .refused r := hs
    simp only [Host.Core.run, hc]
    exact nofun

/-- A good run of one step more: the step raises nothing, answers a next state, and the rest of the run is good. -/
theorem goodFinal_succ_iff (k : Nat) (s : State) :
    goodFinal (k + 1) s = true ↔
      causesAny (stepErrors s) = false ∧ ∃ t, step s = .next t ∧ goodFinal k t = true := by
  simp only [goodFinal, Bool.and_eq_true, Bool.not_eq_true']
  cases step s <;> simp

/-- A command on the port raises what its instruction raises. -/
theorem stepErrors_command {s : State} {c : HostCommand} {rest : List HostCommand} {i : Instr}
    (h : s.pixelSlot = none) (hp : s.port = c :: rest) (hd : decodeCommand c.word = .ok i) :
    stepErrors s = instrErrors i (acceptCommand s c rest) := by
  simp [stepErrors, fetchNext, h, hp, hd]

/-- A reserved OP on the port raises E_CMD (R252). -/
theorem stepErrors_reserved {s : State} {c : HostCommand} {rest : List HostCommand} {e : DecodeError}
    (h : s.pixelSlot = none) (hp : s.port = c :: rest) (hd : decodeCommand c.word = .error e) :
    stepErrors s = { eCmd := true } := by
  simp [stepErrors, fetchNext, h, hp, hd]

/-- A tile-draw variant raises nothing (R151-R154). -/
theorem stepErrors_pixelSlot {s : State} {it : PixelItem} (h : s.pixelSlot = some it) : stepErrors s = {} := by
  simp only [stepErrors, fetchNext, h, decodeTileDraw]
  split <;> rfl

end Sys2Proof.Machine
end

