-- ==== Sys2Proof/Laws/PerInstr.lean ====
section
/-! SUPPORT. Lemmas per instruction: the code of every instruction's encoding is the one its row of spec/opcode_table.json
gives (R81, R90). -/

namespace Sys2Proof.Laws

/-- The code of an encoding: the OP of a command word (R80), the TDV code of a tile-draw variant (R90). -/
def encodedCode : Encoded → BitVec 5 ⊕ BitVec 2
  | .command w => .inl (opField w)
  | .tileDraw it => .inr it.code

/-- The code the opcode table gives an instruction's row. -/
def tableCode : Instr → BitVec 5 ⊕ BitVec 2
  | .reset => .inl 0x01
  | .regWr _ _ => .inl 0x02
  | .regRd _ => .inl 0x03
  | .snapWr _ _ => .inl 0x04
  | .snapRd _ => .inl 0x05
  | .compose => .inl 0x06
  | .mix => .inl 0x07
  | .tdForcePlain _ => .inr 0b00
  | .tdForceShadow _ => .inr 0b01
  | .tdKeepPlain _ => .inr 0b10
  | .tdKeepShadow _ => .inr 0b11

/-- The OP of a command word built from its fields (R80). -/
theorem opField_commandWord (op : BitVec 5) (a : Addr) (d : Word) : opField (commandWord op a d) = op := by
  unfold opField commandWord
  ext i hi
  simp only [BitVec.getElem_extractLsb', BitVec.getLsbD_append]
  have h1 : ¬(27 + i < 16) := by omega
  have h2 : ¬(27 + i - 16 < 11) := by omega
  simp only [h1, h2]
  rw [show 27 + i - 16 - 11 = i by omega]
  exact (BitVec.getLsbD_eq_getElem hi)

/-- The encoding of an instruction has the code of its row. -/
def OpcodeField.Statement (i : Instr) : Prop := encodedCode (encode i) = tableCode i

theorem OpcodeField.reset : OpcodeField.Statement .reset := congrArg Sum.inl (opField_commandWord _ _ _)

theorem OpcodeField.regWr (a : Addr) (d : Word) : OpcodeField.Statement (.regWr a d) :=
  congrArg Sum.inl (opField_commandWord _ _ _)

theorem OpcodeField.regRd (a : Addr) : OpcodeField.Statement (.regRd a) :=
  congrArg Sum.inl (opField_commandWord _ _ _)

theorem OpcodeField.snapWr (a : Addr) (d : Word) : OpcodeField.Statement (.snapWr a d) :=
  congrArg Sum.inl (opField_commandWord _ _ _)

theorem OpcodeField.snapRd (a : Addr) : OpcodeField.Statement (.snapRd a) :=
  congrArg Sum.inl (opField_commandWord _ _ _)

theorem OpcodeField.compose : OpcodeField.Statement .compose := congrArg Sum.inl (opField_commandWord _ _ _)

theorem OpcodeField.mix : OpcodeField.Statement .mix := congrArg Sum.inl (opField_commandWord _ _ _)

theorem OpcodeField.tdForcePlain (p : PixelArgs) : OpcodeField.Statement (.tdForcePlain p) := rfl

theorem OpcodeField.tdForceShadow (p : PixelArgs) : OpcodeField.Statement (.tdForceShadow p) := rfl

theorem OpcodeField.tdKeepPlain (p : PixelArgs) : OpcodeField.Statement (.tdKeepPlain p) := rfl

theorem OpcodeField.tdKeepShadow (p : PixelArgs) : OpcodeField.Statement (.tdKeepShadow p) := rfl

end Sys2Proof.Laws
end

