-- ==== Sys2Proof/Machine/Assembly.lean ====
section
/-! DEFINITION. The assembly syntax and the pseudo-commands of spec/30_encoding.md R84 and R85: what commands a line of
text stands for. No step of the machine reads text; this is the notation in which a host's command sequence is written. -/

namespace Sys2Proof.Machine

/-! ### Pseudo-commands (R85) -/

/-- The expansions of R85, operands as R85 names them; a SNAP word address is taken mod 2048. -/
inductive Pseudo where
  | wrspr (i : Byte) (w : Vector Word 8)
  | offspr (i : Byte)
  | setrect (x0 x1 y0 y1 : Word)
  | setlyr (l : Fin 8) (pri ovr col mask : Word)
  | setshd (n : Fin 3) (mode thr : Word)
  | frame
deriving DecidableEq, Repr

/-- The commands of a pseudo-command, in order (R85). -/
def expandPseudo : Pseudo → List Instr
  | .wrspr i w => (List.finRange 8).map fun j => .snapWr (BitVec.ofNat 11 (8 * i.toNat + j.val)) w[j]
  | .offspr i => [.snapWr (BitVec.ofNat 11 (8 * i.toNat)) 0]
  | .setrect x0 x1 y0 y1 =>
    [.regWr (regAddr .visMinX) x0, .regWr (regAddr .visMaxX) x1,
     .regWr (regAddr .visMinY) y0, .regWr (regAddr .visMaxY) y1]
  | .setlyr l pri ovr col mask =>
    [.regWr (regAddr (.lyrPri l)) pri, .regWr (regAddr (.lyrOvr l)) ovr,
     .regWr (regAddr (.lyrCol l)) col, .regWr (regAddr (.lyrMask l)) mask]
  | .setshd n mode thr => [.regWr (regAddr (.shdCtrl n)) (mode <<< 8 ||| thr)]
  | .frame => [.compose, .mix]

/-! ### Lines of text (R84) -/

/-- The names of the registers without an index (R21). -/
def plainRegNames : List (String × Reg) :=
  [("SPR_CTRL", .sprCtrl), ("SPR_SCROLLX", .sprScrollX), ("SPR_SCROLLY", .sprScrollY),
   ("SPR_KEEPMASK", .sprKeepMask), ("SPR_COLLISIONS", .sprCollisions), ("STATUS", .status),
   ("VIS_MINX", .visMinX), ("VIS_MAXX", .visMaxX), ("VIS_MINY", .visMinY), ("VIS_MAXY", .visMaxY),
   ("MIX_CTRL", .mixCtrl)]

/-- The register of an indexed name, where the index is one R21 gives. -/
def indexedReg (name : List Char) (n : Nat) : Option Reg :=
  if name = "SPR_BLK_CTRL".toList then (if h : n < 4 then some (.sprBlkCtrl ⟨n, h⟩) else none)
  else if name = "SPR_BLK_SHADOW".toList then (if h : n < 4 then some (.sprBlkShadow ⟨n, h⟩) else none)
  else if name = "SHD_CTRL".toList then (if h : n < 3 then some (.shdCtrl ⟨n, h⟩) else none)
  else if name = "LYR_PRI".toList then (if h : n < 8 then some (.lyrPri ⟨n, h⟩) else none)
  else if name = "LYR_OVR".toList then (if h : n < 8 then some (.lyrOvr ⟨n, h⟩) else none)
  else if name = "LYR_COL".toList then (if h : n < 8 then some (.lyrCol ⟨n, h⟩) else none)
  else if name = "LYR_MASK".toList then (if h : n < 8 then some (.lyrMask ⟨n, h⟩) else none)
  else none

/-- The value of a digit in a base. -/
def digitValue (radix : Nat) (c : Char) : Option Nat :=
  let d :=
    if '0'.toNat ≤ c.toNat ∧ c.toNat ≤ '9'.toNat then c.toNat - '0'.toNat
    else if 'a'.toNat ≤ c.toNat ∧ c.toNat ≤ 'f'.toNat then c.toNat - 'a'.toNat + 10
    else if 'A'.toNat ≤ c.toNat ∧ c.toNat ≤ 'F'.toNat then c.toNat - 'A'.toNat + 10
    else 16
  if d < radix then some d else none

/-- The value of a non-empty run of digits. -/
def digitsValue (radix : Nat) (cs : List Char) : Option Nat :=
  match cs with
  | [] => none
  | _ => cs.foldl (fun acc c => acc.bind fun n => (digitValue radix c).map fun d => radix * n + d) (some 0)

/-- A number: decimal, or hexadecimal after 0x (R84). -/
def parseNumber : List Char → Option Nat
  | '0' :: 'x' :: cs => digitsValue 16 cs
  | cs => digitsValue 10 cs

/-- A number below a bound. -/
def parseBelow (bound : Nat) (cs : List Char) : Option Nat :=
  (parseNumber cs).filter fun n => decide (n < bound)

/-- A register name, with its index in parentheses where it has one (R84). -/
def parseReg (cs : List Char) : Option Reg :=
  match plainRegNames.find? fun e => decide (e.1.toList = cs) with
  | some e => some e.2
  | none =>
    match cs.span (· ≠ '(') with
    | (name, '(' :: rest) =>
      if rest.getLast? = some ')' then (parseNumber rest.dropLast).bind (indexedReg name) else none
    | _ => none

/-- An ADDR operand: a register name or a number (R84). -/
def parseAddr (cs : List Char) : Option Addr :=
  match parseReg cs with
  | some r => some (regAddr r)
  | none => (parseBelow 2048 cs).map (BitVec.ofNat 11)

/-- A DATA operand (R84). -/
def parseData (cs : List Char) : Option Word := (parseBelow 65536 cs).map (BitVec.ofNat 16)

/-- Whether a character separates words. -/
def isBlank (c : Char) : Bool := c = ' ' || c = '\t'

/-- A text without blanks at its ends. -/
def trimBlanks (cs : List Char) : List Char := ((cs.dropWhile isBlank).reverse.dropWhile isBlank).reverse

/-- The parts of a text between commas. -/
def splitCommas : List Char → List (List Char)
  | [] => [[]]
  | ',' :: cs => [] :: splitCommas cs
  | c :: cs =>
    match splitCommas cs with
    | [] => [[c]]
    | h :: t => (c :: h) :: t

/-- The operands of a line: none, or parts separated by commas (R84). -/
def parseOperands (cs : List Char) : List (List Char) :=
  match trimBlanks cs with
  | [] => []
  | cs => (splitCommas cs).map trimBlanks

/-- The commands of a mnemonic with its operands (R84, R85). -/
def assembleWords (mnemonic : List Char) (ops : List (List Char)) : Option (List Instr) :=
  if mnemonic = "RESET".toList ∧ ops = [] then some [.reset]
  else if mnemonic = "COMPOSE".toList ∧ ops = [] then some [.compose]
  else if mnemonic = "MIX".toList ∧ ops = [] then some [.mix]
  else if mnemonic = "FRAME".toList ∧ ops = [] then some (expandPseudo .frame)
  else if mnemonic = "REG_RD".toList then
    match ops with
    | [a] => (parseAddr a).map fun a => [.regRd a]
    | _ => none
  else if mnemonic = "SNAP_RD".toList then
    match ops with
    | [a] => (parseAddr a).map fun a => [.snapRd a]
    | _ => none
  else if mnemonic = "REG_WR".toList then
    match ops with
    | [a, d] => (parseAddr a).bind fun a => (parseData d).map fun d => [.regWr a d]
    | _ => none
  else if mnemonic = "SNAP_WR".toList then
    match ops with
    | [a, d] => (parseAddr a).bind fun a => (parseData d).map fun d => [.snapWr a d]
    | _ => none
  else if mnemonic = "OFFSPR".toList then
    match ops with
    | [i] => (parseBelow 256 i).map fun i => expandPseudo (.offspr (BitVec.ofNat 8 i))
    | _ => none
  else if mnemonic = "WRSPR".toList then
    match ops with
    | [i, w0, w1, w2, w3, w4, w5, w6, w7] =>
      (parseBelow 256 i).bind fun i => (parseData w0).bind fun w0 => (parseData w1).bind fun w1 =>
      (parseData w2).bind fun w2 => (parseData w3).bind fun w3 => (parseData w4).bind fun w4 =>
      (parseData w5).bind fun w5 => (parseData w6).bind fun w6 => (parseData w7).map fun w7 =>
        expandPseudo (.wrspr (BitVec.ofNat 8 i) #v[w0, w1, w2, w3, w4, w5, w6, w7])
    | _ => none
  else if mnemonic = "SETRECT".toList then
    match ops with
    | [x0, x1, y0, y1] =>
      (parseData x0).bind fun x0 => (parseData x1).bind fun x1 => (parseData y0).bind fun y0 =>
      (parseData y1).map fun y1 => expandPseudo (.setrect x0 x1 y0 y1)
    | _ => none
  else if mnemonic = "SETLYR".toList then
    match ops with
    | [l, pri, ovr, col, mask] =>
      (parseBelow 8 l).bind fun l => (parseData pri).bind fun pri => (parseData ovr).bind fun ovr =>
      (parseData col).bind fun col => (parseData mask).map fun mask =>
        expandPseudo (.setlyr (Fin.ofNat 8 l) pri ovr col mask)
    | _ => none
  else if mnemonic = "SETSHD".toList then
    match ops with
    | [n, mode, thr] =>
      (parseBelow 3 n).bind fun n => (parseData mode).bind fun mode => (parseData thr).map fun thr =>
        expandPseudo (.setshd (Fin.ofNat 3 n) mode thr)
    | _ => none
  else none

/-- The commands a line of assembly text stands for (R84): a semicolon starts a comment, an empty line stands for no
command, and a line outside the syntax is rejected. -/
def assembleLine (line : List Char) : Option (List Instr) :=
  let text := trimBlanks (line.takeWhile (· ≠ ';'))
  match text with
  | [] => some []
  | _ =>
    let (mnemonic, rest) := text.span fun c => !isBlank c
    assembleWords mnemonic (parseOperands rest)

end Sys2Proof.Machine
end

