-- ==== Sys2Proof/Tests/Slice0.lean ====
section
/-! SUPPORT. Tests of the model on small values: expected results are spec/95_test_vectors.md's (its vector ids in the
names' comments) or written out from the encodings of spec/30_encoding.md; and one witness for each statement's
hypotheses. -/

namespace Sys2Proof.Tests

open Sys2Proof Sys2Proof.Machine

/-! ### Small machines -/

/-- The parameters of spec/95_test_vectors.md section 0, every texel 1 (T_ONE) and a few entries of W_REF. -/
def cfg : Installation where
  flipPivot      := 1023
  tileDeltaX     := #v[0, 1, 2, 3, 4, 5, 6, 7]
  tileDeltaY     := #v[0, 8, 16, 24, 32, 40, 48, 56]
  maxWLess1      := 1023
  maxHLess1      := 1023
  tileRomPresent := true
  tileRom        := ⟨1, []⟩
  colorWiring    := ⟨⟨0, 0⟩, [(0x0306, ⟨0x0060, 0x0003⟩), (0x0C04, ⟨0x0040, 0x000C⟩)]⟩

/-- The machine after power-on in that installation. -/
def machine : State := { State.reset with cfg := cfg }

/-- The words of a sprite record, written in SNAP. -/
def record (i : Nat) (w0 w1 w2 w3 w4 w5 w6 w7 : Word) : WordMem :=
  [(8 * i, w0), (8 * i + 1, w1), (8 * i + 2, w2), (8 * i + 3, w3), (8 * i + 4, w4), (8 * i + 5, w5), (8 * i + 6, w6),
   (8 * i + 7, w7)]

/-- Three records of program P3 in memory order (its records 0, 4 and 2 with their POSX, POSY, COLOR and SHMODE), every other
record inactive, over the one-pixel rectangle at screen (20, 20). -/
def spriteMachine : State :=
  { machine with
    snap :=
      record 0 0x8005 0 20 20 0x40 0x40 0x0102 0 ++ record 1 0x8005 0 20 20 0x40 0x40 0x0306 0 ++
      record 2 0x8006 0 28 20 0x40 0x40 0x0C04 2 ++ (List.range' 3 253).map fun i => (8 * i, 0)
    regs := { Regs.zero with
      sprKeepMask := 0x0004, sprBlkCtrl := #v[0x000F, 0x010F, 0, 0]
      visMinX := 20, visMaxX := 20, visMinY := 20, visMaxY := 20 } }

/-- A machine with planes of 2 by 2 and one drawn element. -/
def drawnMachine : State :=
  { machine with
    allocW := 2, allocH := 2, sprC := [(0, 0x1234)], sprA := [(0, 0x9000)]
    regs := { Regs.zero with
      sprKeepMask := 0x000F, sprBlkCtrl := #v[0x000F, 0, 0, 0], sprBlkShadow := #v[0x9000, 0, 0, 0]
      visMaxX := 1, visMaxY := 1 } }

/-- Layer inputs with one pixel value on each of the first two layers. -/
def twoLayers (g1 g2 : Pixel) : LayerInputs :=
  { LayerInputs.zero with gen1 := ⟨g1, []⟩, gen2 := ⟨g2, []⟩, bg := ⟨⟨0x0777, 0⟩, []⟩ }

/-- A mixer machine: layers 0 and 1 displayed at 4 bpp with full masks and the given priorities. -/
def mixMachine (p0 p1 ovr0 : Word) (g1 g2 : Pixel) : State :=
  { machine with
    layers := twoLayers g1 g2
    regs := { Regs.zero with
      lyrPri := #v[p0, p1, 0, 0, 0, 0, 0, 0], lyrOvr := #v[ovr0, 0, 0, 0, 0, 0, 0, 0]
      lyrCol := #v[0x1000, 0x1000, 0, 0, 0, 0, 0, 0], lyrMask := #v[0x03FF, 0x03FF, 0, 0, 0, 0, 0, 0] } }

/-- Operands of a pixel operation at element (0, 0) of block 0. -/
def pixelArgs (idx pm : Byte) (pal wattr : Word) : PixelArgs :=
  { x := 0, y := 0, idx := idx, pm := pm, pal := pal, wattr := wattr, blk := 0 }

/-- The sprite planes' element (0, 0) after an outcome. -/
def element00 (o : Host.Outcome State Fault Refusal) : Option (Word × Word) :=
  match o with
  | .next t => some (planeRead t.sprC 0 0, planeRead t.sprA 0 0)
  | _ => none

/-- The response after an outcome. -/
def responseOf (o : Host.Outcome State Fault Refusal) : Option Word :=
  match o with
  | .next t => some t.response
  | _ => none

/-! ### WellFormed refuses -/

theorem test_wellFormed_good : WellFormed (.tdForcePlain (pixelArgs 15 0x0F 0 0)) = true := by decide

theorem test_wellFormed_refuses_x : WellFormed (.tdForcePlain { pixelArgs 0 0x0F 0 0 with x := 1024 }) = false := by
  decide

theorem test_wellFormed_refuses_y : WellFormed (.tdForceShadow { pixelArgs 0 0x0F 0 0 with y := 1024 }) = false := by
  decide

theorem test_wellFormed_refuses_pm : WellFormed (.tdKeepPlain (pixelArgs 0 0x0E 0 0)) = false := by decide

theorem test_wellFormed_refuses_idx : WellFormed (.tdKeepShadow (pixelArgs 0x10 0x0F 0 0)) = false := by decide

/-! ### Decoding words written out bit by bit from R80, R81 and R90 -/

theorem test_decode_reset : decodeCommand 0b00001_00000000000_0000000000000000 = .ok .reset := by decide

/-- K2's first word. -/
theorem test_decode_regWr :
    decodeCommand 0b00010_00000000000_1111111111111111 = .ok (.regWr 0 0xFFFF) := by decide

theorem test_decode_regRd :
    decodeCommand 0b00011_00000001100_0000000000000000 = .ok (.regRd 0x00C) := by decide

theorem test_decode_snapWr :
    decodeCommand 0b00100_00000001000_1000000000010000 = .ok (.snapWr 8 0x8010) := by decide

/-- K7's second word. -/
theorem test_decode_snapRd :
    decodeCommand 0b00101_11111111111_0000000000000000 = .ok (.snapRd 0x7FF) := by decide

/-- K10: the fields COMPOSE does not read are ignored. -/
theorem test_decode_compose :
    decodeCommand 0b00110_00000000000_1111111111111111 = .ok .compose := by decide

theorem test_decode_mix : decodeCommand 0b00111_00000000000_0000000000000000 = .ok .mix := by decide

/-- E1, E2: reserved OP values 0x00, 0x08 and 0x1F. -/
theorem test_decode_reserved :
    (decodeCommand 0x00000000, decodeCommand 0x40000000, decodeCommand 0xF8000000) =
      (.error (.reservedOp 0), .error (.reservedOp 8), .error (.reservedOp 31)) := by decide

theorem test_decode_tileDraw :
    (decodeTileDraw ⟨0b00, zeroPixelArgs⟩, decodeTileDraw ⟨0b01, zeroPixelArgs⟩, decodeTileDraw ⟨0b10, zeroPixelArgs⟩,
      decodeTileDraw ⟨0b11, zeroPixelArgs⟩) =
    (.tdForcePlain zeroPixelArgs, .tdForceShadow zeroPixelArgs, .tdKeepPlain zeroPixelArgs,
      .tdKeepShadow zeroPixelArgs) := by decide

theorem test_decodeTableWord :
    (decodeTableWord 32 0x10210240, decodeTableWord 32 0x00000000, decodeTableWord 8 2) =
      (some (.regWr 0x021 0x0240), none, some (.tdKeepPlain zeroPixelArgs)) := by decide

/-- R84, R85 on lines of program P2 and P1. -/
theorem test_assemble :
    (assembleLine "REG_WR SPR_BLK_CTRL(0), 0x000F  ; 0x1004000F".toList, assembleLine "SETSHD 0, 1, 0x10".toList,
      assembleLine "SNAP_WR 2, 100".toList, assembleLine "MIX 1".toList) =
    (some [.regWr 0x004 0x000F], some [.regWr 0x021 0x0110], some [.snapWr 2 100], none) := by decide

/-! ### Host commands (vectors K, E, Z) -/

/-- Z1, E8: RESET clears STATUS. -/
theorem test_reset_clears_status :
    (match exec .reset { machine with regs := { Regs.zero with status := 6 } } with
      | .next t => some (t.regs.status, t.allocW, t.response)
      | _ => none) = some (0, 0, 0) := by decide

/-- K2, K3, K4: the reserved bits are dropped; L = 2 has no ALT, L = 0 has it. -/
theorem test_regWr_masks :
    (match exec (.regWr 0x000 0xFFFF) machine, exec (.regWr 0x030 0xFFFF) machine, exec (.regWr 0x028 0xFFFF) machine with
      | .next t, .next u, .next v => some (t.regs.sprCtrl, u.regs.lyrPri[2], v.regs.lyrPri[0])
      | _, _, _ => none) = some (0x00FF, 0x00FF, 0xFFFF) := by decide

set_option maxRecDepth 20000 in
/-- K9, H2: SHT[0] flags only 0x40. -/
theorem test_regWr_recomputes_sht :
    (match exec (.regWr 0x021 0x0240) machine with
      | .next t => some ((t.sht[(0 : Fin 3)]).count true, shtEntry t 0 0x40, (t.sht[(1 : Fin 3)]).count true)
      | _ => none) = some (1, true, 0) := by decide

/-- K5, K6: RO and unmapped registers. -/
theorem test_regRd_ro_unmapped :
    (responseOf (exec (.regRd 0x00D) { machine with regs := { Regs.zero with status := 3 } }),
      responseOf (exec (.regRd 0x00E) machine), responseOf (exec (.regRd 0x7FF) machine)) =
    (some 3, some 0, some 0) := by decide

/-- The boundaries of the mapped ranges of R21. -/
theorem test_register_map_boundaries :
    [0x00D, 0x00E, 0x00F, 0x010, 0x013, 0x014, 0x01F, 0x020, 0x023, 0x024, 0x027, 0x028, 0x047, 0x048, 0x7FF].map
      (fun a : Addr => (regOfAddr a).isSome) =
    [true, false, false, true, true, false, false, true, true, false, false, true, true, false, false] := by decide

/-- K7, K8. -/
theorem test_snapWr_snapRd :
    (match exec (.snapWr 0x7FF 0xBEEF) machine with
      | .next t => responseOf (exec (.snapRd 0x7FF) t)
      | _ => none) = some 0xBEEF := by decide

/-- E3, E6: both causes of a COMPOSE in one error. -/
theorem test_compose_errors :
    (match exec .compose { machine with
        regs := { Regs.zero with visMinX := 5 }, cfg := { cfg with tileRomPresent := false } } with
      | .next t => some (t.regs.status, t.allocW)
      | _ => none) = some (6, 0) := by decide

set_option maxRecDepth 20000 in
/-- Program P3 at screen (20, 20): the keep sprite of bucket 6 over the force sprite of bucket 5, and the collision of the two
records of bucket 5. -/
theorem test_compose_p3 :
    (match exec .compose spriteMachine with
      | .next t => some (hostRead t .sprC 0 0, hostRead t .sprA 0 0, t.diag, t.regs.sprCollisions)
      | _ => none) = some (some 0x0041, some 0x0007, [⟨5, 0, 1⟩], 1) := by decide

/-- K11, P5: MIX in the reset state allocates one element and shows the background. -/
theorem test_mix_background :
    (match exec .mix { machine with layers := twoLayers ⟨0, 0⟩ ⟨0, 0⟩ } with
      | .next t => some (t.allocW, t.allocH, hostRead t .frC 0 0, hostRead t .bkC 0 0)
      | _ => none) = some (1, 1, some 0x0777, some 0x0777) := by decide

/-- M1 (its layers 0 and 1): the lower priority is in front. -/
theorem test_mix_m1 :
    mixPixel (mixMachine 10 5 0 ⟨0x0012, 0x0011⟩ ⟨0x0034, 0x0022⟩) 0 0 = (⟨0x0034, 0x0022⟩, ⟨0x0012, 0x0011⟩) := by
  decide

/-- A reserved OP sets E_CMD through a step (E1), and the port goes on. -/
theorem test_step_reserved :
    (match step { machine with port := [⟨0, LayerInputs.zero⟩] } with
      | .next t => some (t.regs.status, t.port.length)
      | _ => none) = some (1, 0) := by decide

/-- A row of the opcode table is what the next step runs. -/
theorem test_withFetchWord :
    (match step (machine.withFetchWord 32 0x1000FFFF), step (drawnMachine.withFetchWord 8 1) with
      | .next t, .next u => some (t.regs.sprCtrl, u.pixelSlot)
      | _, _ => none) = some (0x00FF, none) := by decide

/-! ### The Tile Layout Generator (vectors T) -/

/-- A call in the notation of spec/95_test_vectors.md with TILE_DELTA_X. -/
def call (lo hi c : Coord) (size : BitVec 2) (zoom : Coord) (flip mirror gflip : Bool) : TlgCall :=
  ⟨1023, lo, hi, c, size, zoom, cfg.tileDeltaX, flip, mirror, gflip⟩

/-- T28 and T18. -/
theorem test_tlg_one_pixel :
    ((call 100 100 100 0 64 false false false).segments, (call 0 255 100 0 0 false false false).segments) =
      ([⟨100, 100, 512, 64, 0⟩], []) := by decide

/-- T29 cut to 88..112: mirror at a zoom that is not unity. -/
theorem test_tlg_mirror :
    (call 88 112 100 1 96 false true false).segments = [⟨90, 99, 64, 96, 0⟩, ⟨100, 110, 1023, -96, 0⟩] := by decide

/-- T11 cut to 88..112: reversed. -/
theorem test_tlg_reversed :
    (call 88 112 100 0 48 true false false).segments = [⟨90, 110, 991, -48, 0⟩] := by decide

/-- T20 cut to 910..935: global flip. -/
theorem test_tlg_global_flip :
    (call 910 935 100 0 64 false false true).segments = [⟨915, 930, 1023, -64, 0⟩] := by decide

/-! ### Pixel operations (vectors S) -/

/-- S1. -/
theorem test_forcePlain : element00 (exec (.tdForcePlain (pixelArgs 1 0x0F 0x0010 0)) drawnMachine) = some (0x0011, 0) := by
  decide

/-- S2. -/
theorem test_forcePlain_transparent :
    element00 (exec (.tdForcePlain (pixelArgs 0 0x0F 0x0010 0)) drawnMachine) = some (0x1234, 0x9000) := by decide

/-- S6. -/
theorem test_forceShadow :
    element00 (exec (.tdForceShadow (pixelArgs 15 0x0F 0x0010 0)) drawnMachine) = some (0x0010, 0x9000) := by decide

/-- S8. -/
theorem test_forceShadow_plain :
    element00 (exec (.tdForceShadow (pixelArgs 7 0x0F 0x0010 1)) drawnMachine) = some (0x0017, 0x0001) := by decide

/-- S9. -/
theorem test_keepPlain :
    element00 (exec (.tdKeepPlain (pixelArgs 3 0x0F 0x0020 0x00FF)) drawnMachine) = some (0x0023, 0x900F) := by decide

/-- S11 (old attribute 0x0001, KEEP 0xF000). -/
theorem test_keepShadow :
    element00 (exec (.tdKeepShadow (pixelArgs 15 0x0F 0x0030 0))
      { drawnMachine with
        sprA := [(0, 0x0001)], regs := { drawnMachine.regs with sprKeepMask := 0xF000 } }) = some (0x0030, 0x9001) := by
  decide

/-- The four codes of R90 on a top-code index that fails TMASK (R151-R154): only the two detecting variants draw it. -/
theorem test_pixelOp_codes :
    let r : Regs := { Regs.zero with sprBlkShadow := Vector.replicate 4 0x9000, sprKeepMask := 0xF000 }
    [0, 1, 2, 3].map (fun c => pixelOp (tdvOfCode c) r (pixelArgs 15 0x0F 0x0030 0) 0x0001) =
      [none, some ⟨0x0030, 0x9000⟩, none, some ⟨0x0030, 0x9001⟩] := by decide

/-! ### The mixer (vectors M, H) -/

/-- M4: the override. -/
theorem test_mix_override :
    (mixPixel (mixMachine 0x0140 2 0x0102 ⟨0x0035, 0x0011⟩ ⟨0x0034, 0x0022⟩) 0 0).1 = ⟨0x0035, 0x0011⟩ := by decide

/-- M10f: a visible shadow pixel whose SH is toggled off. -/
theorem test_mix_shadow :
    let s := mixMachine 5 0 0 ⟨0x0000, 0xD000⟩ ⟨0, 0⟩
    (mixPixel { s with
        regs := { s.regs with lyrCol := #v[0x1800, 0, 0, 0, 0, 0, 0, 0] }
        sht := #v[[], [], computeSht 0x0205] } 0 0).1 = ⟨0x0000, 0xC000⟩ := by decide

set_option maxRecDepth 20000 in
/-- H1 to H9: the number of flagged entries. -/
theorem test_shadow_tables :
    [0x0000, 0x0240, 0x0100, 0x01FF, 0x0300, 0x03FF, 0x0110, 0x0330, 0x00FF].map
      (fun v : Word => (computeSht v).count true) = [0, 1, 256, 1, 1, 256, 240, 49, 0] := by decide

/-! ### Witnesses: for each statement with hypotheses, values that meet all of them together -/

/-- The command `w` on the port of `s`, with the layer port at zero. -/
def onPort (s : State) (w : CmdWord) : State := { s with port := [⟨w, LayerInputs.zero⟩] }

/-- The next state of an outcome, or the given one. -/
def nextOr (o : Host.Outcome State Fault Refusal) (s : State) : State :=
  match o with
  | .next t => t
  | _ => s

theorem witness_DecodeEncodeRoundTrip : WellFormed (.tdKeepShadow (pixelArgs 0xFF 0xFF 0 0)) = true := by decide

theorem witness_OpFieldSelectsCommand :
    [0x0FFFFFFF, 0x17FFFFFF, 0x1FFFFFFF, 0x27FFFFFF, 0x2FFFFFFF, 0x37FFFFFF, 0x3FFFFFFF].map
      (fun w : CmdWord => w.extractLsb' 27 5) = [1, 2, 3, 4, 5, 6, 7] := by decide

theorem witness_DecodedCommandReencodes : decodeCommand 0x37FFFFFF = .ok .compose := by decide

theorem witness_StepRunsDecodedCommand :
    let s := onPort machine 0x20088010
    s.pixelSlot = none ∧ s.port = [⟨0x20088010, LayerInputs.zero⟩] ∧ decodeCommand 0x20088010 = .ok (.snapWr 8 0x8010) := by
  decide

theorem witness_StepRunsTileDraw :
    ({ drawnMachine with pixelSlot := some ⟨2, pixelArgs 3 15 0x20 0xFF⟩ } : State).pixelSlot =
      some ⟨2, pixelArgs 3 15 0x20 0xFF⟩ := rfl

theorem witness_ReservedOpSetsECmd :
    (onPort machine 0).pixelSlot = none ∧ (onPort machine 0).port = [⟨0, LayerInputs.zero⟩] ∧
    (0x07FFFFFF : CmdWord).extractLsb' 27 5 = 0 ∧ 8 ≤ ((0x40000000 : CmdWord).extractLsb' 27 5).toNat ∧
    8 ≤ ((0xFFFFFFFF : CmdWord).extractLsb' 27 5).toNat ∧ ¬(8 ≤ ((0x3FFFFFFF : CmdWord).extractLsb' 27 5).toNat) := by
  decide

theorem witness_IdleHoldsState : drawnMachine.pixelSlot = none ∧ drawnMachine.port = [] := by decide

theorem witness_StepAlwaysCompletes : (onPort drawnMachine 0x38000000).pixelSlot = none := rfl

theorem regsMasked_drawn : regsMasked drawnMachine.regs := by
  intro x
  cases x <;> first | decide | (rename_i b; revert b; decide)

set_option maxRecDepth 20000 in
theorem witness_StepKeepsInv :
    Inv (onPort drawnMachine 0x10210240) ∧ ∃ t, step (onPort drawnMachine 0x10210240) = .next t :=
  ⟨⟨by decide, regsMasked_drawn, by unfold shtCoherent; decide, by unfold allocLegal; decide⟩, _, rfl⟩

set_option maxRecDepth 20000 in
theorem witness_ShadowTablesFollowShdCtrl :
    (∀ n : Fin 3, drawnMachine.sht[n] = computeSht drawnMachine.regs.shdCtrl[n]) ∧
      ∃ t, step (onPort drawnMachine 0x10210240) = .next t := ⟨by decide, _, rfl⟩

/-- A step from which a bit is set, and the run it is the first step of. -/
theorem witness_StatusBitsSticky :
    ∃ u, step (onPort machine 0xF8000000) = .next u ∧ core.run 0 (onPort machine 0xF8000000) = .next (onPort machine 0xF8000000) ∧
      (onPort machine 0xF8000000).regs.status.getLsbD 0 = false ∧ u.regs.status.getLsbD 0 = true :=
  ⟨_, rfl, rfl, by decide, by decide⟩

/-- R256: a reserved OP and then RESET is no good run; RESET alone is, from a STATUS already set, and so is a read. -/
theorem test_goodFinal :
    let run (st : Word) (ws : List CmdWord) : State := { machine with
      regs := { machine.regs with status := st }, port := ws.map fun w => ⟨w, LayerInputs.zero⟩ }
    (goodFinal 2 (run 0 [0x00000000, 0x08000000]), goodFinal 1 (run 1 [0x08000000]), goodFinal 1 (run 0 [0x180D0000]),
      goodFinal 1 (run 1 [0x180D0000])) = (false, true, true, false) := by decide

theorem witness_StatusChangesOnlyByCauses :
    ∃ t, step (onPort drawnMachine 0x40000000) = .next t ∧ t.regs.status ≠ (onPort drawnMachine 0x40000000).regs.status :=
  ⟨_, rfl, by decide⟩

theorem witness_StepKeepsInstallation : ∃ t, step (onPort drawnMachine 0x08000000) = .next t := ⟨_, rfl⟩

theorem witness_SnapWrittenOnlyBySnapWrAndReset :
    ∃ t, exec .mix drawnMachine = .next t ∧ Instr.mix ≠ .reset ∧ ∀ a d, Instr.mix ≠ .snapWr a d :=
  ⟨_, rfl, by decide, fun _ _ => nofun⟩

theorem witness_RegisterAndDiagWriters :
    ∃ t, exec .compose spriteMachine = .next t ∧ Instr.compose ≠ .reset ∧ regWritable (.lyrPri 7) = true ∧
      (∀ a d, Instr.compose ≠ .regWr a d) ∧ Instr.mix ≠ .compose :=
  ⟨_, rfl, by decide, by decide, fun _ _ => nofun, by decide⟩

/-- The last register of the map, and the widest rectangle. -/
theorem witness_RegisterMapExact :
    let r : Regs := { Regs.zero with visMaxX := 1023, visMinY := 7, visMaxY := 7 }
    regOfAddr 0x047 = some (.lyrMask 7) ∧ (visMinX r ≤ visMaxX r ∧ rectW r = 1024) ∧
      visMinY r ≤ visMaxY r ∧ rectH r = 1 := by decide

theorem witness_RegWrResult :
    regWritable (.shdCtrl 2) = true ∧ Reg.shdCtrl 2 ≠ .shdCtrl 0 ∧ regOfAddr 0x7FF = none ∧
      regOfAddr 0x00C = some .sprCollisions ∧ regWritable .sprCollisions = false := by decide

theorem witness_RegRdResult : regOfAddr 0x00E = none ∧ regOfAddr 0x048 = none := by decide

theorem witness_RepeatedCommands :
    (∃ t, exec (.regWr 0x021 0x0240) drawnMachine = .next t) ∧
    ∃ t u, exec .compose spriteMachine = .next t ∧ exec .compose t = .next u := ⟨⟨_, rfl⟩, _, _, rfl, rfl⟩

/-- The four ways a rectangle is invalid, each by one, and the largest valid width. -/
theorem witness_ConfigurationErrors :
    let m (a b c d : Word) (w : Fin 1024) : State :=
      { machine with
        regs := { Regs.zero with visMinX := a, visMaxX := b, visMinY := c, visMaxY := d }
        cfg := { cfg with maxWLess1 := w, maxHLess1 := w } }
    [rectValid (m 1 0 0 0 1023), rectValid (m 0 0 1 0 1023), rectValid (m 0 512 0 0 511), rectValid (m 0 0 0 512 511),
      rectValid (m 0 511 0 511 511), rectValid (m 0 1023 0 1023 1023)] = [false, false, false, false, true, true] ∧
    cfg.tileRomPresent = true ∧ ({ cfg with tileRomPresent := false } : Installation).tileRomPresent = false := by
  decide

theorem witness_ComposeCompletes :
    (rectValid drawnMachine = true ∧ drawnMachine.cfg.tileRomPresent = true ∧
      rectW drawnMachine.regs = drawnMachine.allocW ∧ rectH drawnMachine.regs = drawnMachine.allocH) ∧
    rectValid spriteMachine = true ∧ spriteMachine.cfg.tileRomPresent = true ∧
      ¬(rectW spriteMachine.regs = spriteMachine.allocW ∧ rectH spriteMachine.regs = spriteMachine.allocH) := by
  decide

theorem witness_CollisionsCountedAndReported :
    rectValid spriteMachine = true ∧ spriteMachine.cfg.tileRomPresent = true := by decide

/-- The machine with every record's word 0 written as 0x0000. -/
def blankMachine : State := { machine with snap := (List.range 256).map fun i => (8 * i, 0) }

/-- Every block write protected, in wrap mode; records 0 and 1 active in bucket 5. -/
def protectedMachine : State :=
  snapWrite (snapWrite { blankMachine with
    regs := { blankMachine.regs with sprCtrl := 0x0010, sprBlkCtrl := Vector.replicate 4 0x0100 } } 0 0x8005) 8 0x8005

/-- The same machine with the two records' word 0 written as 0x0005, not active. -/
def consumedMachine : State := snapWrite (snapWrite protectedMachine 0 0x0005) 8 0x0005

/-- Rewriting the word 0 of records 0 and 1 leaves every other word as it was. -/
theorem snapRead_consumed (a : Nat) :
    snapRead consumedMachine a = if a = 0 ∨ a = 8 then 0x0005 else snapRead protectedMachine a := by
  by_cases h8 : a = 8
  · subst h8; exact snapRead_snapWrite_same _ _ _
  · rw [consumedMachine, snapRead_snapWrite_other _ _ h8]
    by_cases h0 : a = 0
    · subst h0; exact snapRead_snapWrite_same _ _ _
    · rw [snapRead_snapWrite_other _ _ h0, if_neg (by omega)]

set_option maxRecDepth 20000 in
theorem inBucket_protected (j : Byte) : inBucket protectedMachine 5 j = decide (j.toNat < 2) := by
  revert j; decide

/-- B6, on the record of test_compose_p3 with its block's WP set: skipped with WRAP = 1, drawn with WRAP = 0. -/
theorem test_writeProtect :
    let m (ctrl : Word) : State := { spriteMachine with
      regs := { spriteMachine.regs with sprCtrl := ctrl, sprBlkCtrl := Vector.replicate 4 0x010F } }
    let draws (ctrl : Word) : Bool := decide (drawSprite (m ctrl) (decodeRecord (m ctrl) 1) ⟨[], []⟩ ≠ ⟨[], []⟩)
    (draws 0x0010, draws 0x0000) = (false, true) := by decide

/-- Priority 5 under PINV is bucket 0xFA (R141). -/
theorem test_inBucket_pinv :
    let s : State := { protectedMachine with regs := { protectedMachine.regs with sprCtrl := 0x0001 } }
    (inBucket s 0xFA 1, inBucket s 5 1, inBucket protectedMachine 5 1) = (true, false, true) := by decide

theorem witness_WriteProtectedSpriteSkipped :
    let s := protectedMachine
    (rectValid s = true ∧ s.cfg.tileRomPresent = true ∧ inBucket s 5 1 = true ∧
      (∀ j, 1 < j → inBucket s 5 j = false) ∧ (∀ b, blkWp s.regs b = true) ∧ sprWrap s.regs = true ∧
      consumedMachine = { s with snap := consumedMachine.snap } ∧
      ∀ j, decodeRecord consumedMachine j =
        { decodeRecord s j with active := (decodeRecord s j).active && !inBucket s 5 j }) ∧
    (0x0000 : Word).getLsbD 0 = s.regs.sprCtrl.getLsbD 0 ∧
    (sprWrap { s.regs with sprCtrl := 0x00EF } = false ∧ blkWp { s.regs with sprBlkCtrl := Vector.replicate 4 0x00FF } 3 = false) := by
  refine ⟨⟨by decide, by decide, ?_, ?_, by decide, by decide, rfl, ?_⟩, by decide, by decide, by decide⟩
  · rw [inBucket_protected]; decide
  · intro j hj
    rw [inBucket_protected]
    exact decide_eq_false (by bv_omega)
  · intro j
    have h0 : snapRead protectedMachine 0 = 0x8005 := by decide
    have h8 : snapRead protectedMachine 8 = 0x8005 := by decide
    rw [inBucket_protected]
    by_cases hj : j.toNat = 0 ∨ j.toNat = 1
    · rcases hj with hj | hj <;>
        simp [decodeRecord, recordOfWords, snapRead_consumed, hj, h0, h8]
    · have hi : ¬(j.toNat < 2) := by omega
      have hw : ∀ k < 8, snapRead consumedMachine (8 * j.toNat + k) = snapRead protectedMachine (8 * j.toNat + k) :=
        fun k hk => by rw [snapRead_consumed, if_neg (by omega)]
      simp only [decodeRecord, recordOfWords, hw 0 (by decide), hw 1 (by decide), hw 2 (by decide), hw 3 (by decide),
        hw 4 (by decide), hw 5 (by decide), hw 6 (by decide), hw 7 (by decide)]
      simp [hi]

set_option maxRecDepth 20000 in
theorem witness_ComposeWithoutActiveRecordsClears :
    rectValid blankMachine = true ∧ blankMachine.cfg.tileRomPresent = true ∧
      (∀ i, (decodeRecord blankMachine i).active = false) ∧
      ¬(rectW blankMachine.regs = blankMachine.allocW ∧ rectH blankMachine.regs = blankMachine.allocH) := by
  refine ⟨by decide, by decide, ?_, by decide⟩
  decide

theorem witness_ComposeElementsMatchReference :
    rectValid spriteMachine = true ∧ spriteMachine.cfg.tileRomPresent = true ∧
      0 < rectW spriteMachine.regs ∧ 0 < rectH spriteMachine.regs := by decide

theorem witness_ScanlineBatchAgrees :
    let s : State := { spriteMachine with regs := { spriteMachine.regs with visMinY := 20, visMaxY := 21 } }
    let s' : State := { s with regs := { s.regs with visMinY := 21, visMaxY := 25 } }
    rectValid s = true ∧ rectValid s' = true ∧ s.cfg.tileRomPresent = true ∧ 1 < rectH s.regs ∧ 0 < rectH s'.regs ∧
      (visMinY s.regs).toNat + 1 = (visMinY s'.regs).toNat + 0 := by decide

theorem witness_EmptyAxisHasNoSegments :
    (call 0 255 100 0 0 false false false).zoom = 0 ∧
      (call 200 199 100 0 64 false false false).scanMax < (call 200 199 100 0 64 false false false).scanMin := by decide

theorem witness_GlobalFlipRemapsCenter : (call 0 1023 100 1 64 false true true).gflip = true := rfl

/-- Offsets that sample in every regime; regime M on either side of the anchor, by R120 (Cfx = 1024 at size 1), and at its
last sampling offset. -/
theorem witness_ReversedMirrorsForward :
    let a : Axis := (call 0 255 100 1 48 false true false).axis
    ((sampleAt { a with regime := .forward } (-3)).isSome = true ∧
      (sampleAt { a with regime := .reversed } (-3)).isSome = true) ∧
    a.regime = .mirrored ∧ a.zoom ≠ 0 ∧ sampleAt a (-1) = some ⟨976, 48, 0⟩ ∧ sampleAt a 0 = some ⟨1023, -48, 1⟩ ∧
    sampleAt a (-21) = some ⟨16, 48, 0⟩ ∧ sampleAt a (-22) = none ∧ sampleAt a 21 = some ⟨15, -48, 1⟩ ∧
    sampleAt a 22 = none := by decide

theorem witness_FootprintSameInEveryRegime : (call 0 255 100 3 1023 false false false).axis.zoom ≠ 0 := by decide

theorem witness_SegmentsCoverExactlyOnce : (call 90 110 100 0 48 true false false).zoom ≠ 0 := by decide

theorem witness_SegmentTexelsStayInTile :
    ⟨100, 110, 1023, -96, 0⟩ ∈ (call 88 112 100 1 96 false true false).segments ∧ 100 ≤ 110 ∧ 110 ≤ 110 := by decide

/-- A footprint that fills the scan range exactly. -/
theorem witness_UnityForwardTilesExactly :
    let q := call 84 115 100 1 64 false false false
    q.zoom = 64 ∧ q.axis.regime = .forward ∧
      q.scanMin.toNat + (16 <<< q.size.toNat) / 2 ≤ q.axis.center.toNat ∧
      q.axis.center.toNat + (16 <<< q.size.toNat) / 2 ≤ q.scanMax.toNat + 1 := by decide

/-- The operands of the tile-draw statements: an opaque, a transparent and a top-code index at the last element. -/
theorem witness_TileDrawResults :
    let p (i : Byte) : PixelArgs := { pixelArgs i 0x0F 0x0010 0 with x := 1, y := 1 }
    [0, 1, 15].all (fun i => (p i).wellFormed && decide ((p i).x < drawnMachine.allocW) &&
      decide ((p i).y < drawnMachine.allocH)) = true ∧
    (p 1).idx &&& blkTmask drawnMachine.regs (p 1).blk ≠ 0 ∧ (p 1).idx ≠ (p 1).pm ∧
    (p 0).idx &&& blkTmask drawnMachine.regs (p 0).blk = 0 ∧ (p 0).idx ≠ (p 0).pm ∧ (p 15).idx = (p 15).pm := by
  decide

/-- The first absent element on either side, for an opaque index and for a top code that fails TMASK; and the last pixel of a
sprite's segment pair. -/
theorem witness_TileDrawOutsidePlanesFaults :
    let s : State := { drawnMachine with regs := { drawnMachine.regs with sprBlkCtrl := Vector.replicate 4 0x0001 } }
    let t : State := { drawnMachine with regs := { drawnMachine.regs with sprBlkCtrl := Vector.replicate 4 0 } }
    let p (i : Byte) : PixelArgs := { pixelArgs i 0x0F 0x0010 0 with x := 2, y := 1 }
    let q (i : Byte) : PixelArgs := { pixelArgs i 0x0F 0x0010 0 with x := 1, y := 2 }
    (s.allocW = (p 1).x ∧ ¬(s.allocH ≤ (p 1).y)) ∧ (s.allocH = (q 1).y ∧ ¬(s.allocW ≤ (q 1).x)) ∧
    ((p 1).idx &&& blkTmask s.regs (p 1).blk ≠ 0 ∧ (p 1).idx ≠ (p 1).pm) ∧
    ((q 15).idx &&& blkTmask t.regs (q 15).blk = 0 ∧ (q 15).idx = (q 15).pm) := by
  decide

theorem witness_SegmentPairInPlanes :
    let s : State := { machine with regs := { Regs.zero with visMinX := 84, visMaxX := 99, visMinY := 84, visMaxY := 99 } }
    let r : SpriteRecord := { recordOfWords (fun _ => 0) with posX := 92, posY := 92, zoomX := 64, zoomY := 64 }
    let g : Segment := ⟨84, 99, 0, 64, 0⟩
    g ∈ recordSegmentsX s r ∧ g ∈ recordSegmentsY s r ∧ 99 ∈ segmentPixels g := by
  decide

theorem witness_MixCompletes :
    rectValid drawnMachine = true ∧ rectW drawnMachine.regs = drawnMachine.allocW ∧
      rectH drawnMachine.regs = drawnMachine.allocH ∧ 1 < rectW drawnMachine.regs ∧ 1 < rectH drawnMachine.regs := by
  decide

theorem witness_MixAtNewSizeSeesNoSprites :
    let s : State := { drawnMachine with regs := { drawnMachine.regs with visMaxX := 2 } }
    rectValid s = true ∧ ¬(rectW s.regs = s.allocW ∧ rectH s.regs = s.allocH) := by decide

/-- M1's layers 0 and 1, and the case of no visible layer. -/
theorem witness_FrontAndBackHaveLowestKeys :
    let s := mixMachine 10 5 0 ⟨0x0012, 0x0011⟩ ⟨0x0034, 0x0022⟩
    let shown (l : Fin 8) : Bool := layerVisible s.regs l (layerPixel s l 0 0 0 0)
    (List.finRange 8).map shown = [true, true, false, false, false, false, false, false] ∧
    (candidateAt s 0 0 0 0 1).key < (candidateAt s 0 0 0 0 0).key ∧
    (List.finRange 8).all (fun l => !layerVisible machine.regs l (layerPixel machine l 0 0 0 0)) = true := by decide

theorem witness_SegmentsOrderedInScanRange :
    ⟨90, 99, 64, 96, 0⟩ ∈ (call 88 112 100 1 96 false true false).segments := by decide

theorem witness_KeyPacksPriorityAndLayer : (3 : Fin 8) < 6 := by decide

theorem witness_PinvReversesPriorities :
    (5 : Byte) < 10 ∧ mixPinv machine.regs = false ∧ mixPinv { machine.regs with mixCtrl := 1 } = true := by decide

theorem witness_OverrideOnlyForFirstTwoLayers :
    let r := (mixMachine 0x0140 2 0x0102 ⟨0, 0⟩ ⟨0, 0⟩).regs
    lyrOvrEn r 0 = true ∧ lyrOvrEn r 1 = false ∧
    (0x0025 / 2 ^ layerDepth r 0) % 256 ≤ (lyrOvrThr r 0).toNat ∧
    (lyrOvrThr r 0).toNat < (0x0035 / 2 ^ layerDepth r 0) % 256 := by decide

theorem witness_ShadowTogglesOnlySh :
    (background ⟨0, 0⟩).source = none ∧
    (layerCandidate machine.regs 3 ⟨0, 0xC000⟩).source = some (3, 0) := by decide

/-- Each mode, modes 1 and 3 at both ends of the threshold. -/
theorem witness_ShadowTableThresholds :
    [0x0040, 0x0100, 0x01FF, 0x0240, 0x0300, 0x03FF].map
      (fun v : Word => (v.extractLsb' 8 2, v.extractLsb' 0 8)) =
      ([(0, 0x40), (1, 0), (1, 255), (2, 0x40), (3, 0), (3, 255)] : List (BitVec 2 × Byte)) := by decide

/-- R182, R188: a pixel whose pen bits are 0 at 4 bits per pixel shows at 8, and where SH is set. -/
theorem test_layerVisible :
    let r (col : Word) : Regs := { Regs.zero with lyrCol := Vector.replicate 8 col }
    (layerVisible (r 0x1000) 3 ⟨0x0010, 0⟩, layerVisible (r 0x1400) 3 ⟨0x0010, 0⟩, layerVisible (r 0x1000) 3 ⟨0x0010, 0x1000⟩,
      layerVisible (r 0x0400) 3 ⟨0x0010, 0x1000⟩, layerColor (r 0x10FF) 3 0x0134) =
    (false, true, true, false, 0x0034) := by decide

end Sys2Proof.Tests
end

section
/-! SUPPORT. What one instruction and one step can do, a constructor per outcome, and how a property of the state is
carried through a step. -/

namespace Sys2Proof.Machine

/-- `i` is one of the four tile-draw variants, with the operands `p` (R151-R154). -/
def IsTileDraw (i : Instr) (p : PixelArgs) : Prop :=
  i = .tdForcePlain p ∨ i = .tdForceShadow p ∨ i = .tdKeepPlain p ∨ i = .tdKeepShadow p

/-- The next states that an instruction can answer from `s`. -/
inductive ExecResult (s : State) : Instr → State → Prop where
  | reset : ExecResult s .reset (respond (resetState s) 0)
  | regWr (a : Addr) (d : Word) : ExecResult s (.regWr a d) (respond (regWrite s a d) 0)
  | regRd (a : Addr) : ExecResult s (.regRd a) (respond s (regRead s a))
  | snapWr (a : Addr) (d : Word) : ExecResult s (.snapWr a d) (respond (snapWrite s a.toNat d) 0)
  | snapRd (a : Addr) : ExecResult s (.snapRd a) (respond s (snapRead s a.toNat))
  | composeError : ExecResult s .compose (raiseConfigError s (composeErrors s))
  | composePass (hr : rectValid s = true) : ExecResult s .compose (respond (composePass (passStart s)) 0)
  | mixError : ExecResult s .mix (raiseConfigError s (mixErrors s))
  | mixPass (hr : rectValid s = true) : ExecResult s .mix (respond (mixPass (passStart s)) 0)
  | pixelUntouched {i : Instr} (p : PixelArgs) (hi : IsTileDraw i p) : ExecResult s i s
  | pixelPainted {i : Instr} (p : PixelArgs) (px : Pixel) (hi : IsTileDraw i p) (hin : inPlanes s p.x p.y = true) :
      ExecResult s i (paintElement s p.x p.y px)

/-- The end of a tile-draw variant's pixel operation, as an outcome of that variant. -/
theorem execResult_of_finishPixel {i : Instr} {p : PixelArgs} {v : Option Pixel} {s t : State} (hi : IsTileDraw i p)
    (h : finishPixel s p.x p.y v = .next t) : ExecResult s i t := by
  rcases finishPixel_cases s p.x p.y v with ⟨-, he⟩ | ⟨px, -, hin, he⟩ | ⟨px, -, -, he⟩ <;> rw [he] at h <;> cases h
  · exact .pixelUntouched p hi
  · exact .pixelPainted p px hi hin

/-- Every next state of an instruction is one of its listed outcomes. -/
theorem execResult_of_next {i : Instr} {s t : State} (h : exec i s = .next t) : ExecResult s i t := by
  cases i with
  | reset => cases h; exact .reset
  | regWr a d => cases h; exact .regWr a d
  | regRd a => cases h; exact .regRd a
  | snapWr a d => cases h; exact .snapWr a d
  | snapRd a => cases h; exact .snapRd a
  | compose =>
    have h : execCompose s = .next t := h
    rcases execCompose_cases s with ⟨-, he⟩ | ⟨hr, -, he⟩ <;> rw [he] at h <;> cases h
    · exact .composeError
    · exact .composePass hr
  | mix =>
    have h : execMix s = .next t := h
    rcases execMix_cases s with ⟨-, he⟩ | ⟨hr, he⟩ <;> rw [he] at h <;> cases h
    · exact .mixError
    · exact .mixPass hr
  | tdForcePlain p => exact execResult_of_finishPixel (.inl rfl) h
  | tdForceShadow p => exact execResult_of_finishPixel (.inr (.inl rfl)) h
  | tdKeepPlain p => exact execResult_of_finishPixel (.inr (.inr (.inl rfl))) h
  | tdKeepShadow p => exact execResult_of_finishPixel (.inr (.inr (.inr rfl))) h

/-- A property that the ports and the tile-draw slot do not touch, and that every instruction and every configuration
error keeps, is kept by every step. -/
theorem step_keeps {P : State → Prop} (hslot : ∀ s, P s → P { s with pixelSlot := none })
    (hport : ∀ s c rest, P s → P (acceptCommand s c rest)) (herror : ∀ s c, P s → P (raiseConfigError s c))
    (hexec : ∀ i s t, P s → exec i s = .next t → P t) {s t : State} (hs : P s) (h : step s = .next t) : P t := by
  rcases step_cases s with
    ⟨it, -, he⟩ | ⟨-, -, he⟩ | ⟨c, rest, i, -, -, -, he⟩ | ⟨c, rest, e, -, -, -, he⟩ <;> rw [he] at h
  · exact hexec _ _ _ (hslot s hs) h
  · cases h; exact hs
  · exact hexec _ _ _ (hport s c rest hs) h
  · cases h; exact herror _ _ (hport s c rest hs)

end Sys2Proof.Machine
end

section
/-! SUPPORT. Frames of the register writes and the compositor pass, field by field, and what bucketing adds to DIAG and
to the count of SPR_COLLISIONS. -/

namespace Sys2Proof.Machine

/-! ### Registers as stores -/

@[simp] theorem regGet_zero (x : Reg) : regGet Regs.zero x = 0 := by
  cases x <;> simp [regGet, Regs.zero]

theorem raiseConfigError_regs_eq_regSet (s : State) (c : Causes) :
    (raiseConfigError s c).regs = regSet s.regs (statusAfter s.regs.status c) .status := rfl

theorem composePass_regs (s : State) :
    (composePass s).regs = regSet s.regs (composePass s).regs.sprCollisions .sprCollisions := by
  rw [composePass_frame]; rfl

section
variable (s : State) (a : Addr) (v : Word)

@[simp] theorem regWrite_snap : (regWrite s a v).snap = s.snap := by rw [regWrite_frame]
@[simp] theorem regWrite_resets : (regWrite s a v).resets = s.resets := by rw [regWrite_frame]
@[simp] theorem regWrite_diag : (regWrite s a v).diag = s.diag := by rw [regWrite_frame]

@[simp] theorem composePass_snap : (composePass s).snap = s.snap := by rw [composePass_frame]
@[simp] theorem composePass_resets : (composePass s).resets = s.resets := by rw [composePass_frame]
@[simp] theorem composePass_frC : (composePass s).frC = s.frC := by rw [composePass_frame]
@[simp] theorem composePass_frA : (composePass s).frA = s.frA := by rw [composePass_frame]
@[simp] theorem composePass_bkC : (composePass s).bkC = s.bkC := by rw [composePass_frame]
@[simp] theorem composePass_bkA : (composePass s).bkA = s.bkA := by rw [composePass_frame]
@[simp] theorem composePass_allocW : (composePass s).allocW = s.allocW := by rw [composePass_frame]
@[simp] theorem composePass_allocH : (composePass s).allocH = s.allocH := by rw [composePass_frame]
@[simp] theorem composePass_sht : (composePass s).sht = s.sht := by rw [composePass_frame]
@[simp] theorem composePass_cfg : (composePass s).cfg = s.cfg := by rw [composePass_frame]

end

/-- A write leaves every read-only register alone (R21). -/
theorem regGet_regWrite_of_readOnly (s : State) (a : Addr) (v : Word) {x : Reg} (hx : regWritable x = false) :
    regGet (regWrite s a v).regs x = regGet s.regs x := by
  rcases regWrite_cases s a v with ⟨y, -, hy, he⟩ | ⟨he, -⟩ <;> rw [he]
  rw [regStore_regs, regGet_regSet_other]
  rintro rfl
  simp [hx] at hy

/-! ### The events of bucketing (R142) -/

/-- One record adds at most one event to DIAG and counts it. -/
theorem bucketRecord_events (ts : Buckets × State) (i : Byte) : ∃ es : List Collision, es.length ≤ 1 ∧
    (bucketRecord ts i).2.diag = ts.2.diag ++ es ∧
    (bucketRecord ts i).2.regs.sprCollisions = ts.2.regs.sprCollisions + BitVec.ofNat 16 es.length := by
  simp only [bucketRecord]
  split
  · simp only
    split
    · exact ⟨[_], le_rfl, rfl, rfl⟩
    · exact ⟨[], Nat.zero_le _, by simp, by simp⟩
  · exact ⟨[], Nat.zero_le _, by simp, by simp⟩

/-- Records add at most one event each to DIAG, and the count rises by the number of events. -/
theorem foldl_bucketRecord_events (is : List Byte) (ts : Buckets × State) :
    ∃ es : List Collision, es.length ≤ is.length ∧
      (is.foldl bucketRecord ts).2.diag = ts.2.diag ++ es ∧
      (is.foldl bucketRecord ts).2.regs.sprCollisions = ts.2.regs.sprCollisions + BitVec.ofNat 16 es.length := by
  induction is generalizing ts with
  | nil => exact ⟨[], le_rfl, by simp, by simp⟩
  | cons i is ih =>
    obtain ⟨es, hlen, hdiag, hcount⟩ := bucketRecord_events ts i
    obtain ⟨fs, hlen', hdiag', hcount'⟩ := ih (bucketRecord ts i)
    refine ⟨es ++ fs, ?_, ?_, ?_⟩
    · simp only [List.length_append, List.length_cons]; omega
    · rw [List.foldl_cons, hdiag', hdiag, List.append_assoc]
    · rw [List.foldl_cons, hcount', hcount, List.length_append, BitVec.ofNat_add, BitVec.add_assoc]

@[simp] theorem length_recordIndices : recordIndices.length = 256 := by simp [recordIndices]

/-- A compositor pass appends its events to DIAG and leaves their number in SPR_COLLISIONS. -/
theorem composePass_events (s : State) : ∃ es : List Collision, es.length ≤ 256 ∧
    (composePass s).diag = s.diag ++ es ∧ (composePass s).regs.sprCollisions = BitVec.ofNat 16 es.length := by
  obtain ⟨es, hlen, hdiag, hcount⟩ := foldl_bucketRecord_events recordIndices
    (List.replicate 256 none, { s with regs := { s.regs with sprCollisions := 0 } })
  exact ⟨es, length_recordIndices ▸ hlen, hdiag, hcount.trans (BitVec.zero_add _)⟩

end Sys2Proof.Machine
end

section
/-! SUPPORT. Where a compositor pass draws: the segments of an axis lie in its scan range, so every pixel operation is at
an element of the rectangle's planes, and drawing keeps the canonical form of the sprite planes (R61, R111, R147). -/

namespace Sys2Proof.Machine

/-! ### Segments stay in the scan range -/

/-- A segment's pixels lie in `lo..hi`. -/
def Segment.Within (lo hi : Nat) (g : Segment) : Prop := lo ≤ g.screenMin ∧ g.screenMax ≤ hi

theorem scanSegments_within {lo hi : Nat} (a : Axis) (ps : List Nat) (o : Option OpenSegment)
    (hps : ∀ p ∈ ps, lo ≤ p ∧ p ≤ hi) (ho : ∀ op, o = some op → op.seg.Within lo hi) :
    ∀ g ∈ scanSegments a ps o, g.Within lo hi := by
  have hclose : ∀ g ∈ closeSegment o, g.Within lo hi := by
    cases o with
    | none => simp [closeSegment]
    | some op => simpa [closeSegment] using ho op rfl
  induction ps generalizing o with
  | nil => simpa [scanSegments] using hclose
  | cons p ps ih =>
    obtain ⟨hp, hps⟩ := List.forall_mem_cons.1 hps
    have hrest : ∀ op : OpenSegment, op.seg.Within lo hi → ∀ g ∈ scanSegments a ps (some op), g.Within lo hi :=
      fun op hop => ih (some op) hps (by simpa using hop) (by simpa [closeSegment] using hop)
    have hopen : ∀ k m, (openAt a p k m).seg.Within lo hi := fun _ _ => hp
    intro g hg
    simp only [scanSegments] at hg
    split at hg
    · rcases List.mem_append.1 hg with hg | hg
      · exact hclose g hg
      · exact ih none hps nofun (by simp [closeSegment]) g hg
    · exact hrest _ (hopen _ _) g hg
    · rename_i op _
      have hop := ho op rfl
      split at hg
      · exact hrest { op with seg := { op.seg with screenMax := p }, lastK := _ } ⟨hop.1, hp.2⟩ g hg
      · rcases List.mem_cons.1 hg with rfl | hg
        · exact hop
        · exact hrest _ (hopen _ _) g hg

/-- Every segment of a call lies in the scan range (R111). -/
theorem tlg_within {pivot scanMin scanMax center : Coord} {size : BitVec 2} {zoom : Coord} {delta : Vector Word 8}
    {flip mirror gflip : Bool} {g : Segment}
    (hg : g ∈ tlg pivot scanMin scanMax center size zoom delta flip mirror gflip) :
    g.Within scanMin.toNat scanMax.toNat := by
  unfold tlg at hg
  split at hg
  · cases hg
  · refine scanSegments_within _ _ none (fun p hp => ?_) nofun g hg
    rw [scanRange, List.mem_range'_1] at hp
    omega

/-! ### Pixel operations stay in the planes -/

theorem rectW_le (r : Regs) : rectW r ≤ 1024 := by
  have := (visMaxX r).isLt
  unfold rectW; omega

theorem pixelArgsAt_x_lt {s : State} {r : SpriteRecord} {gx gy : Segment} {px py : Nat} {k : SpritePaint}
    (hg : gx ∈ recordSegmentsX s r) (hp : px ∈ segmentPixels gx) :
    (pixelArgsAt s k gx gy px py).x < rectW s.regs := by
  obtain ⟨hlo, hhi⟩ := tlg_within hg
  obtain ⟨hmin, hmax⟩ := mem_segmentPixels.1 hp
  simp only [pixelArgsAt, rectW]
  omega

theorem pixelArgsAt_y_lt {s : State} {r : SpriteRecord} {gx gy : Segment} {px py : Nat} {k : SpritePaint}
    (hg : gy ∈ recordSegmentsY s r) (hp : py ∈ segmentPixels gy) :
    (pixelArgsAt s k gx gy px py).y < rectH s.regs := by
  obtain ⟨hlo, hhi⟩ := tlg_within hg
  obtain ⟨hmin, hmax⟩ := mem_segmentPixels.1 hp
  simp only [pixelArgsAt, rectH]
  omega

/-! ### Drawing keeps the canonical form -/

/-- Both sprite planes are in canonical form at size `w` by `h`. -/
def SpritePlanes.Wf (w h : Nat) (pl : SpritePlanes) : Prop :=
  planeWf w h pl.color = true ∧ planeWf w h pl.attr = true

theorem drawPixel_wf {w h : Nat} {t : Tdv} {regs : Regs} {p : PixelArgs} {pl : SpritePlanes} (hpl : pl.Wf w h)
    (hx : p.x < w) (hw : w ≤ 1024) (hy : p.y < h) : (drawPixel t regs p pl).Wf w h := by
  unfold drawPixel
  split
  · exact hpl
  · exact ⟨planeWf_planeWrite _ hpl.1 hx (by omega) hy, planeWf_planeWrite _ hpl.2 hx (by omega) hy⟩

theorem tileDraw_wf {s : State} {r : SpriteRecord} {k : SpritePaint} {gx gy : Segment} {pl : SpritePlanes}
    (hgx : gx ∈ recordSegmentsX s r) (hgy : gy ∈ recordSegmentsY s r) (hpl : pl.Wf (rectW s.regs) (rectH s.regs)) :
    (tileDraw s k gx gy pl).Wf (rectW s.regs) (rectH s.regs) :=
  List.foldlRecOn _ _ hpl fun _ hpl _ hpy => List.foldlRecOn _ _ hpl fun _ hpl _ hpx =>
    drawPixel_wf hpl (pixelArgsAt_x_lt hgx hpx) (rectW_le _) (pixelArgsAt_y_lt hgy hpy)

theorem drawSprite_wf {s : State} {r : SpriteRecord} {pl : SpritePlanes}
    (hpl : pl.Wf (rectW s.regs) (rectH s.regs)) : (drawSprite s r pl).Wf (rectW s.regs) (rectH s.regs) := by
  rcases drawSprite_cases s r pl with ⟨-, he⟩ | ⟨-, he⟩ <;> rw [he]
  · exact hpl
  · exact List.foldlRecOn _ _ hpl fun _ hpl _ hgy => List.foldlRecOn _ _ hpl fun _ hpl _ hgx =>
      tileDraw_wf hgx hgy hpl

theorem drawBucket_wf {s : State} {o : Option Byte} {pl : SpritePlanes}
    (hpl : pl.Wf (rectW s.regs) (rectH s.regs)) : (drawBucket s pl o).Wf (rectW s.regs) (rectH s.regs) := by
  cases o with
  | none => exact hpl
  | some i => exact drawSprite_wf hpl

/-- A compositor pass leaves sprite planes in canonical form at the rectangle's size. -/
theorem composePass_planes_wf (s : State) :
    planeWf (rectW s.regs) (rectH s.regs) (composePass s).sprC = true ∧
    planeWf (rectW s.regs) (rectH s.regs) (composePass s).sprA = true := by
  let ts := bucketing { s with regs := { s.regs with sprCollisions := 0 } }
  have hregs : ts.2.regs = { s.regs with sprCollisions := ts.2.regs.sprCollisions } := by
    conv_lhs => rw [show ts.2 = _ from bucketing_frame _]
  have hw : rectW ts.2.regs = rectW s.regs := by rw [hregs]; rfl
  have hh : rectH ts.2.regs = rectH s.regs := by rw [hregs]; rfl
  have hwf : (ts.1.foldl (drawBucket ts.2) ⟨[], []⟩).Wf (rectW ts.2.regs) (rectH ts.2.regs) :=
    List.foldlRecOn _ _ ⟨rfl, rfl⟩ fun _ hpl _ _ => drawBucket_wf hpl
  rwa [hw, hh] at hwf

end Sys2Proof.Machine
end

section
/-! SUPPORT. Each part of the machine's invariant through an instruction: shadow tables (R42), masked registers (R21),
legal allocation (R41) and canonical memories (R38, R61). -/

namespace Sys2Proof.Machine

/-! ### Shadow tables -/

/-- From `s` to `t` each shadow table stays together with its SHD_CTRL(n), or is computed from the new one. -/
def ShtFollows (s t : State) : Prop := ∀ n : Fin 3,
  (t.sht[n] = s.sht[n] ∧ t.regs.shdCtrl[n] = s.regs.shdCtrl[n]) ∨ t.sht[n] = computeSht t.regs.shdCtrl[n]

/-- A store in a register other than SHD_CTRL(n) leaves SHD_CTRL(n). -/
theorem shdCtrl_regSet_other (r : Regs) (v : Word) {x : Reg} {n : Fin 3} (h : x ≠ .shdCtrl n) :
    (regSet r v x).shdCtrl[n] = r.shdCtrl[n] :=
  regGet_regSet_other r v h.symm

theorem shtFollows_regStore (s : State) (x : Reg) (v : Word) : ShtFollows s (regStore s x v) := by
  intro n
  rw [regStore_regs, regStore_sht]
  by_cases hx : x = .shdCtrl n
  · subst hx
    exact .inr (by simp [regSet])
  · refine .inl ⟨?_, shdCtrl_regSet_other _ _ hx⟩
    cases x with
    | shdCtrl m =>
      have hmn : m.val ≠ n.val := fun h => hx (congrArg Reg.shdCtrl (Fin.ext h))
      simp [hmn]
    | _ => rfl

theorem shtFollows_regWrite (s : State) (a : Addr) (v : Word) : ShtFollows s (regWrite s a v) := by
  rcases regWrite_cases s a v with ⟨x, -, -, he⟩ | ⟨he, -⟩ <;> rw [he]
  · exact shtFollows_regStore s x _
  · exact fun n => .inl ⟨rfl, rfl⟩

/-- Every instruction keeps each shadow table with its register or recomputes it (R42). -/
theorem shtFollows_of_exec {i : Instr} {s t : State} (h : exec i s = .next t) : ShtFollows s t := by
  intro n
  cases execResult_of_next h with
  | reset => exact .inr (by simp [Regs.zero])
  | regWr a d => exact shtFollows_regWrite s a d n
  | composePass =>
    have hreg := composePass_regGet (passStart s) (x := .shdCtrl n) nofun
    rw [passStart_regs] at hreg
    exact .inl ⟨by simp, hreg⟩
  | mixPass => exact .inl (by simp)
  | _ => exact .inl ⟨rfl, rfl⟩

theorem shtCoherent_of_follows {s t : State} (hs : shtCoherent s) (h : ShtFollows s t) : shtCoherent t := by
  intro n
  rcases h n with ⟨hsht, hreg⟩ | hnew
  · rw [hsht, hreg, hs n]
  · exact hnew

/-! ### Masked registers -/

/-- A word that keeps within a mask has no bit outside it. -/
theorem and_not_mask_eq_zero {v m : Word} (h : v &&& m = v) : v &&& ~~~m = 0 := by
  rw [← h, BitVec.and_assoc, BitVec.and_not_self]
  exact BitVec.and_zero

theorem regsMasked_regSet {r : Regs} {v : Word} {x : Reg} (hr : regsMasked r) (hv : v &&& ~~~(fieldMask x) = 0) :
    regsMasked (regSet r v x) := by
  intro y
  by_cases hy : y = x
  · rw [hy, regGet_regSet_same, hv]
  · rw [regGet_regSet_other _ _ hy, hr y]

theorem regsMasked_zero : regsMasked Regs.zero := by
  intro x
  rw [regGet_zero]
  exact BitVec.zero_and

/-- The STATUS bits of the causes are field bits (R29). -/
theorem causeBits_masked (c : Causes) : causeBits c &&& ~~~(fieldMask .status) = 0 := by
  obtain ⟨cmd, rect, tile⟩ := c
  revert cmd rect tile
  decide

theorem regsMasked_raiseConfigError {s : State} (c : Causes) (h : regsMasked s.regs) :
    regsMasked (raiseConfigError s c).regs := by
  have hstatus : s.regs.status &&& ~~~(fieldMask .status) = 0 := h .status
  have hbits := causeBits_masked c
  rw [raiseConfigError_regs_eq_regSet]
  refine regsMasked_regSet h ?_
  rw [BitVec.and_comm] at hstatus hbits ⊢
  rw [statusAfter, BitVec.and_or_distrib_left, hstatus, hbits, BitVec.or_self]

theorem regsMasked_regWrite {s : State} (a : Addr) (v : Word) (h : regsMasked s.regs) :
    regsMasked (regWrite s a v).regs := by
  rcases regWrite_cases s a v with ⟨x, -, -, he⟩ | ⟨he, -⟩ <;> rw [he]
  · rw [regStore_regs]
    refine regsMasked_regSet h (and_not_mask_eq_zero ?_)
    rw [BitVec.and_assoc, BitVec.and_self]
  · exact h

/-- COUNT holds the at most 256 events of a pass without a reserved bit (R28). -/
theorem regsMasked_composePass {s : State} (h : regsMasked s.regs) : regsMasked (composePass s).regs := by
  obtain ⟨es, hlen, -, hcount⟩ := composePass_events s
  rw [composePass_regs, hcount]
  refine regsMasked_regSet h (and_not_mask_eq_zero (BitVec.eq_of_toNat_eq ?_))
  calc (BitVec.ofNat 16 es.length &&& fieldMask .sprCollisions).toNat
      = (BitVec.ofNat 16 es.length).toNat &&& (2 ^ 9 - 1) := BitVec.toNat_and ..
    _ = (BitVec.ofNat 16 es.length).toNat := by
      rw [Nat.and_two_pow_sub_one_eq_mod, BitVec.toNat_ofNat]; omega

theorem regsMasked_exec {i : Instr} {s t : State} (hs : regsMasked s.regs) (h : exec i s = .next t) :
    regsMasked t.regs := by
  cases execResult_of_next h with
  | reset => exact regsMasked_zero
  | regWr a d => exact regsMasked_regWrite a d hs
  | composeError => exact regsMasked_raiseConfigError _ hs
  | composePass => exact regsMasked_composePass (by rwa [passStart_regs])
  | mixError => exact regsMasked_raiseConfigError _ hs
  | mixPass => rwa [respond_regs, mixPass_regs, passStart_regs]
  | _ => exact hs

/-! ### Allocation -/

/-- The size of a valid rectangle is a legal allocation (R227). -/
theorem allocLegal_of_rectValid {s t : State} (hr : rectValid s = true) (hw : t.allocW = rectW s.regs)
    (hh : t.allocH = rectH s.regs) (hc : t.cfg = s.cfg) : allocLegal t := by
  obtain ⟨hx, hy, hmaxW, hmaxH⟩ := (rectValid_iff s).1 hr
  have hx := BitVec.le_def.1 hx
  have hy := BitVec.le_def.1 hy
  have hw1 : 1 ≤ rectW s.regs := by unfold rectW; omega
  have hh1 : 1 ≤ rectH s.regs := by unfold rectH; omega
  exact .inr (by rw [hw, hh, hc]; exact ⟨hw1, hmaxW, hh1, hmaxH⟩)

theorem allocLegal.allocW_le {s : State} (h : allocLegal s) : s.allocW ≤ 1024 := by
  have hmax : s.cfg.maxW ≤ 1024 := s.cfg.maxWLess1.isLt
  rcases h with ⟨hw, -⟩ | ⟨-, hw, -⟩ <;> omega

theorem allocLegal_exec {i : Instr} {s t : State} (hs : allocLegal s) (h : exec i s = .next t) : allocLegal t := by
  cases execResult_of_next h with
  | reset => exact .inl ⟨rfl, rfl⟩
  | regWr a d => rw [regWrite_frame]; exact hs
  | composePass hr => exact allocLegal_of_rectValid hr (by simp) (by simp) (by simp)
  | mixPass hr => exact allocLegal_of_rectValid hr (by simp) (by simp) (by simp)
  | _ => exact hs

/-! ### Memories -/

theorem memoryWf_respond (s : State) (v : Word) : Memory.wf (respond s v) = Memory.wf s := rfl

/-- A compositor pass over planes of the rectangle's size keeps the canonical form. -/
theorem memoryWf_composePass {s : State} (h : Memory.wf s = true) (hw : s.allocW = rectW s.regs)
    (hh : s.allocH = rectH s.regs) : Memory.wf (composePass s) = true := by
  obtain ⟨hC, hA⟩ := composePass_planes_wf s
  obtain ⟨hsnap, -, -, hout⟩ := (memoryWf_iff s).1 h
  rw [memoryWf_iff]
  simp only [composePass_snap, composePass_allocW, composePass_allocH, composePass_frC, composePass_frA,
    composePass_bkC, composePass_bkA]
  exact ⟨hsnap, hw ▸ hh ▸ hC, hw ▸ hh ▸ hA, hout⟩

theorem memoryWf_exec {i : Instr} {s t : State} (hs : Memory.wf s = true) (ha : s.allocW ≤ 1024)
    (h : exec i s = .next t) : Memory.wf t = true := by
  cases execResult_of_next h with
  | reset => exact memoryWf_resetState s
  | regWr a d => rw [regWrite_frame]; exact hs
  | snapWr a d => exact memoryWf_snapWrite a d hs
  | composePass =>
    rw [memoryWf_respond]
    exact memoryWf_composePass (memoryWf_passStart hs) (by simp) (by simp)
  | mixPass =>
    rw [memoryWf_respond]
    exact memoryWf_mixPass (memoryWf_passStart hs) (by simpa using rectW_le s.regs)
  | pixelPainted p px _ hin =>
    have hx : p.x < s.allocW := by simpa using (Bool.and_eq_true_iff.1 hin).1
    exact memoryWf_paintElement px hs hin (by omega)
  | _ => exact hs

/-! ### The invariant -/

theorem inv_raiseConfigError {s : State} (c : Causes) (h : Inv s) : Inv (raiseConfigError s c) where
  memory := h.memory
  regs := regsMasked_raiseConfigError c h.regs
  sht := h.sht
  alloc := h.alloc

theorem inv_exec {i : Instr} {s t : State} (hs : Inv s) (h : exec i s = .next t) : Inv t where
  memory := memoryWf_exec hs.memory hs.alloc.allocW_le h
  regs := regsMasked_exec hs.regs h
  sht := shtCoherent_of_follows hs.sht (shtFollows_of_exec h)
  alloc := allocLegal_exec hs.alloc h

/-- SHD_CTRL at 0 gives a table of zeros (R48, R192). -/
theorem computeSht_zero : computeSht 0 = List.replicate 256 false := by
  rw [List.eq_replicate_iff]
  refine ⟨by simp [computeSht], fun b hb => ?_⟩
  obtain ⟨i, -, rfl⟩ := List.mem_map.1 hb
  rfl

theorem shtCoherent_reset : shtCoherent State.reset := by
  intro n
  have hsht : State.reset.sht = Vector.replicate 3 (computeSht 0) := by rw [computeSht_zero]; rfl
  have hreg : State.reset.regs.shdCtrl[n] = 0 := regGet_zero (.shdCtrl n)
  rw [hsht, hreg, Fin.getElem_fin, Vector.getElem_replicate]

/-- A table that is computed from SHD_CTRL(n) has ShadowBit in every entry (R192). -/
theorem shtEntry_of_computed {s : State} {n : Fin 3} (h : s.sht[n] = computeSht s.regs.shdCtrl[n]) (i : Byte) :
    shtEntry s n i = shadowBit (shdMode s.regs.shdCtrl[n]) (shdThr s.regs.shdCtrl[n]) i := by
  rw [shtEntry, h, computeSht_getD]

end Sys2Proof.Machine
end

section
/-! SUPPORT. What an instruction leaves of SNAP, the registers and DIAG, and the register map in both directions. -/

namespace Sys2Proof.Machine

/-! ### Writers -/

/-- Only RESET and SNAP_WR touch SNAP and the number of resets that selects its unspecified words. -/
theorem snap_exec {i : Instr} {s t : State} (h : exec i s = .next t) (hreset : i ≠ .reset)
    (hsnap : ∀ a d, i ≠ .snapWr a d) : t.snap = s.snap ∧ t.resets = s.resets := by
  cases execResult_of_next h with
  | reset => exact absurd rfl hreset
  | snapWr a d => exact absurd rfl (hsnap a d)
  | regWr a d => exact ⟨regWrite_snap s a d, regWrite_resets s a d⟩
  | composePass => simp
  | mixPass => simp
  | _ => exact ⟨rfl, rfl⟩

/-- Only RESET and REG_WR change an RW register. -/
theorem regGet_exec {i : Instr} {s t : State} {x : Reg} (h : exec i s = .next t) (hreset : i ≠ .reset)
    (hwr : ∀ a d, i ≠ .regWr a d) (hx : regWritable x = true) : regGet t.regs x = regGet s.regs x := by
  have hstatus : x ≠ .status := by rintro rfl; cases hx
  have hcount : x ≠ .sprCollisions := by rintro rfl; cases hx
  cases execResult_of_next h with
  | reset => exact absurd rfl hreset
  | regWr a d => exact absurd rfl (hwr a d)
  | composeError => exact regGet_regSet_other _ _ hstatus
  | composePass => rw [respond_regs, composePass_regGet _ hcount, passStart_regs]
  | mixError => exact regGet_regSet_other _ _ hstatus
  | mixPass => simp
  | _ => rfl

/-- Only RESET and COMPOSE change SPR_COLLISIONS and DIAG. -/
theorem collisions_exec {i : Instr} {s t : State} (h : exec i s = .next t) (hreset : i ≠ .reset)
    (hcompose : i ≠ .compose) : t.regs.sprCollisions = s.regs.sprCollisions ∧ t.diag = s.diag := by
  cases execResult_of_next h with
  | reset => exact absurd rfl hreset
  | regWr a d => exact ⟨regGet_regWrite_of_readOnly s a d (x := .sprCollisions) rfl, regWrite_diag s a d⟩
  | composePass => exact absurd rfl hcompose
  | mixPass => simp
  | _ => exact ⟨rfl, rfl⟩

/-- Only RESET removes an event from DIAG. -/
theorem diag_exec_append {i : Instr} {s t : State} (h : exec i s = .next t) (hreset : i ≠ .reset) :
    ∃ es, t.diag = s.diag ++ es := by
  by_cases hcompose : i = .compose
  · subst hcompose
    cases execResult_of_next h with
    | composePass =>
      obtain ⟨es, -, hdiag, -⟩ := composePass_events (passStart s)
      exact ⟨es, by rw [respond_diag, hdiag, passStart_diag]⟩
    | _ => exact ⟨[], (List.append_nil _).symm⟩
  · exact ⟨[], by rw [(collisions_exec h hreset hcompose).2, List.append_nil]⟩

/-! ### The register map (R21) -/

/-- A register's row holds the access, the FIELDMASK and the register that the map gives it. -/
theorem registerRow_at {x : Reg} {addr : Nat} (h : (regAddr x).toNat = addr) :
    RegisterRow x addr (regWritable x) (fieldMask x) (regGet · x) :=
  ⟨h, rfl, rfl, fun _ => rfl⟩

/-- The address of a register leads back to it. -/
@[simp] theorem regOfAddr_regAddr (x : Reg) : regOfAddr (regAddr x) = some x := by
  cases x with
  | sprBlkCtrl b => revert b; decide
  | sprBlkShadow b => revert b; decide
  | shdCtrl n => revert n; decide
  | lyrPri l => revert l; decide
  | lyrOvr l => revert l; decide
  | lyrCol l => revert l; decide
  | lyrMask l => revert l; decide
  | _ => rfl

/-- A register stands at the address that leads to it. -/
theorem regAddr_of_regOfAddr {a : Addr} {x : Reg} (h : regOfAddr a = some x) : regAddr x = a := by
  refine BitVec.eq_of_toNat_eq ?_
  unfold regOfAddr at h
  split at h
  case h_12 =>
    split_ifs at h
    · cases h; simp only [regAddr, BitVec.toNat_ofNat, Fin.ofNat]; omega
    · cases h; simp only [regAddr, BitVec.toNat_ofNat, Fin.ofNat]; omega
    · cases h; simp only [regAddr, BitVec.toNat_ofNat, Fin.ofNat]; omega
    · simp only at h
      split at h
      case h_4 hpri hovr hcol =>
        cases h
        rw [imp_false] at hpri hovr hcol
        simp only [regAddr, BitVec.toNat_ofNat, Fin.ofNat]
        omega
      all_goals cases h; simp only [regAddr, BitVec.toNat_ofNat, Fin.ofNat]; omega
  all_goals cases h; simp [regAddr, *]

/-- The unmapped addresses are the gaps R21 lists and everything from 0x048 on. -/
theorem regOfAddr_eq_none_iff (a : Addr) : regOfAddr a = none ↔
    (a.toNat = 0x00E ∨ a.toNat = 0x00F) ∨ (0x014 ≤ a.toNat ∧ a.toNat ≤ 0x01F) ∨
    (0x024 ≤ a.toNat ∧ a.toNat ≤ 0x027) ∨ 0x048 ≤ a.toNat := by
  unfold regOfAddr
  split
  case h_12 =>
    simp only [imp_false] at *
    split_ifs
    · exact iff_of_false nofun (by omega)
    · exact iff_of_false nofun (by omega)
    · exact iff_of_false nofun (by omega)
    · split <;> exact iff_of_false nofun (by omega)
    · exact iff_of_true rfl (by omega)
  all_goals simp [*]

/-- A write at a register's address stores the masked value where the register is RW (R223). -/
theorem regGet_regWrite_regAddr (s : State) (x : Reg) (d : Word) :
    regGet (regWrite s (regAddr x) d).regs x = if regWritable x then d &&& fieldMask x else regGet s.regs x := by
  rw [regWrite, regOfAddr_regAddr]
  cases hx : regWritable x <;> simp [hx]

/-- A read at a register's address answers the register (R224). -/
theorem regRead_regAddr (s : State) (x : Reg) : regRead s (regAddr x) = regGet s.regs x := by
  rw [regRead, regOfAddr_regAddr]

/-! ### Fields -/

theorem compositorFields (r : Regs) : CompositorFields r := by
  refine ⟨⟨rfl, rfl, rfl, rfl, rfl, rfl⟩, ⟨rfl, rfl, rfl⟩, fun _ => ⟨rfl, rfl, rfl⟩, ⟨rfl, rfl, rfl, rfl⟩,
    fun hx => ?_, fun hy => ?_⟩
  · have := BitVec.le_def.1 hx
    unfold rectW; omega
  · have := BitVec.le_def.1 hy
    unfold rectH; omega

theorem mixerFields (r : Regs) : MixerFields r :=
  ⟨rfl, fun _ => ⟨rfl, rfl⟩, fun _ => ⟨⟨rfl, rfl⟩, ⟨rfl, rfl⟩, ⟨rfl, rfl, rfl, rfl⟩, rfl, rfl⟩⟩

theorem statusFields (c : Causes) : StatusFields c := by
  obtain ⟨cmd, rect, tile⟩ := c
  unfold StatusFields
  revert cmd rect tile
  decide

/-! ### The state after power-on -/

/-- No element of an unallocated plane is there for the host to read (R41, R229). -/
theorem hostRead_of_allocW_zero {s : State} (h : s.allocW = 0) (p : PlaneId) (x y : Nat) : hostRead s p x y = none := by
  simp [hostRead, inPlanes, h]

theorem shtEntry_reset (n : Fin 3) (i : Byte) : shtEntry State.reset n i = false := by
  rw [shtEntry_of_computed (shtCoherent_reset n)]
  have hreg : State.reset.regs.shdCtrl[n] = 0 := regGet_zero (.shdCtrl n)
  rw [hreg]
  rfl

end Sys2Proof.Machine
end

section
/-! CERTIFICATES. The statements about the state and the register map (spec/10_state.md). -/

namespace Sys2Proof.Machine

/-- Settles O12: the invariant part by part through each outcome of an instruction. -/
theorem stepKeepsInv : Obligations.StepKeepsInv := by
  unfold Obligations.StepKeepsInv
  intro s t hs h
  exact step_keeps (P := Inv) (fun s hs => ⟨hs.memory, hs.regs, hs.sht, hs.alloc⟩)
    (fun s c rest hs => ⟨hs.memory, hs.regs, hs.sht, hs.alloc⟩) (fun s c hs => inv_raiseConfigError c hs)
    (fun i s t hs h => inv_exec hs h) hs h

/-- Settles O11: each part of the invariant at power-on. -/
theorem resetStateInv : Obligations.ResetStateInv where
  memory := memoryWf_reset
  regs := regsMasked_zero
  sht := shtCoherent_reset
  alloc := .inl ⟨rfl, rfl⟩

/-- Settles O13: at power-on every table is computed, and a step keeps table and register or recomputes the table. -/
theorem shadowTablesFollowShdCtrl : Obligations.ShadowTablesFollowShdCtrl := by
  unfold Obligations.ShadowTablesFollowShdCtrl
  intro coherent
  refine ⟨fun n => shtEntry_of_computed (shtCoherent_reset n), fun s t hs h => ?_⟩
  refine step_keeps (P := coherent) (fun _ hs => hs) (fun _ _ _ hs => hs) (fun _ _ hs => hs)
    (fun i s t hs h n b => ?_) hs h
  rcases shtFollows_of_exec h n with ⟨hsht, hreg⟩ | hnew
  · rw [hreg, ← hs n b, shtEntry, shtEntry, hsht]
  · exact shtEntry_of_computed hnew b

/-- Settles O17: RESET and SNAP_WR are the only outcomes that touch what `snapRead` reads. -/
theorem snapWrittenOnlyBySnapWrAndReset : Obligations.SnapWrittenOnlyBySnapWrAndReset := by
  unfold Obligations.SnapWrittenOnlyBySnapWrAndReset
  intro i s t h hreset hsnap a
  obtain ⟨hmem, hresets⟩ := snap_exec h hreset hsnap
  exact snapRead_congr hmem hresets a

/-- Settles O18: a register, the count and DIAG each have their own list of writers among the outcomes. -/
theorem registerAndDiagWriters : Obligations.RegisterAndDiagWriters := by
  unfold Obligations.RegisterAndDiagWriters
  intro i s t h hreset
  exact ⟨fun x hx hwr => regGet_exec h hreset hwr hx, collisions_exec h hreset, diag_exec_append h hreset⟩

/-- Settles O21: the rows are read off the map's definitions, the map is inverse to the addresses, and the unmapped
addresses are its last branch. -/
theorem registerMapExact : Obligations.RegisterMapExact := by
  unfold Obligations.RegisterMapExact
  refine ⟨⟨registerRow_at rfl, registerRow_at rfl, registerRow_at rfl, registerRow_at rfl,
    fun b => ⟨registerRow_at ?_, registerRow_at ?_⟩, registerRow_at rfl, registerRow_at rfl, registerRow_at rfl,
    registerRow_at rfl, registerRow_at rfl, registerRow_at rfl, registerRow_at rfl, fun n => registerRow_at ?_,
    fun l => ⟨registerRow_at ?_, registerRow_at ?_, registerRow_at ?_, registerRow_at ?_⟩⟩,
    regOfAddr_regAddr, fun a x h => regAddr_of_regOfAddr h, regOfAddr_eq_none_iff,
    fun r => ⟨compositorFields r, mixerFields r⟩, statusFields⟩
  all_goals simp only [regAddr, BitVec.toNat_ofNat]; omega

/-- Settles O24: the write's value stands where the read looks. -/
theorem regWrThenRegRd : Obligations.RegWrThenRegRd := by
  unfold Obligations.RegWrThenRegRd
  intro s x d
  refine ⟨_, _, rfl, rfl, ?_⟩
  rw [respond_response, regRead_regAddr, respond_regs, regGet_regWrite_regAddr]

/-- Settles O19: with SHD_CTRL(n) at 0 every table entry is ShadowBit of mode 0, and no plane is allocated. -/
theorem powerOnState : Obligations.PowerOnState := by
  unfold Obligations.PowerOnState
  exact ⟨regGet_zero, shtEntry_reset, rfl, rfl, rfl, hostRead_of_allocW_zero rfl⟩

end Sys2Proof.Machine
end

section
/-! SUPPORT. What a command performed twice in a row does (R67): writes and configuration errors are idempotent, a MIX
reads nothing it writes, and a compositor pass reads neither the sprite planes, the response nor DIAG. -/

namespace Sys2Proof.Machine

/-! ### Writes and configuration errors -/

theorem memInsert_memInsert (m : WordMem) (k : Nat) (v : Word) :
    memInsert (memInsert m k v) k v = memInsert m k v := by
  induction m with
  | nil => simp [memInsert]
  | cons e m ih =>
    obtain ⟨a, w⟩ := e
    by_cases hlt : k < a
    · simp [memInsert, hlt]
    · by_cases heq : k = a
      · simp [memInsert, heq]
      · simp [memInsert, hlt, heq, ih]

theorem snapWrite_snapWrite (s : State) (a : Nat) (v : Word) : snapWrite (snapWrite s a v) a v = snapWrite s a v := by
  simp only [snapWrite, memInsert_memInsert]

theorem regSet_regSet (r : Regs) (v : Word) (x : Reg) : regSet (regSet r v x) v x = regSet r v x := by
  cases x <;> simp [regSet]

theorem regStore_regStore (s : State) (x : Reg) (v : Word) : regStore (regStore s x v) x v = regStore s x v := by
  cases x with
  | shdCtrl n => simp [regStore, regSet_regSet]
  | _ => simp only [regStore, regSet_regSet]

theorem regWrite_regWrite (s : State) (a : Addr) (v : Word) : regWrite (regWrite s a v) a v = regWrite s a v := by
  unfold regWrite
  cases regOfAddr a with
  | none => rfl
  | some x => cases hx : regWritable x <;> simp [hx, regStore_regStore]

/-- The response of the command before takes no part in a write. -/
theorem snapWrite_respond (s : State) (a : Nat) (v w : Word) :
    snapWrite (respond s w) a v = respond (snapWrite s a v) w := rfl

theorem regWrite_respond (s : State) (a : Addr) (v w : Word) :
    regWrite (respond s w) a v = respond (regWrite s a v) w := by
  unfold regWrite
  cases regOfAddr a with
  | none => rfl
  | some x => cases hx : regWritable x <;> cases x <;> rfl

theorem execRegWr_repeat {s t : State} {a : Addr} {d : Word} (h : execRegWr a d s = .next t) :
    execRegWr a d t = .next t := by
  cases h
  rw [execRegWr, regWrite_respond, regWrite_regWrite]
  rfl

theorem execSnapWr_repeat {s t : State} {a : Addr} {d : Word} (h : execSnapWr a d s = .next t) :
    execSnapWr a d t = .next t := by
  cases h
  rw [execSnapWr, snapWrite_respond, snapWrite_snapWrite]
  rfl

theorem raiseConfigError_raiseConfigError (s : State) (c : Causes) :
    raiseConfigError (raiseConfigError s c) c = raiseConfigError s c := by
  simp [raiseConfigError, respond, statusAfter, BitVec.or_assoc]

/-! ### Passes -/

/-- Planes that already have the rectangle's size are kept (R227). -/
theorem passStart_eq_self {s : State} (hw : s.allocW = rectW s.regs) (hh : s.allocH = rectH s.regs) : passStart s = s :=
  if_pos ⟨hw.symm, hh.symm⟩

theorem execMix_of_errors {s : State} (h : causesAny (mixErrors s) = true) :
    execMix s = .next (raiseConfigError s (mixErrors s)) :=
  congrArg _ (if_pos h)

theorem execMix_of_noErrors {s : State} (h : ¬causesAny (mixErrors s) = true) :
    execMix s = .next (respond (mixPass (passStart s)) 0) :=
  congrArg _ (if_neg h)

theorem execCompose_of_errors {s : State} (h : causesAny (composeErrors s) = true) :
    execCompose s = .next (raiseConfigError s (composeErrors s)) :=
  congrArg _ (if_pos h)

theorem execCompose_of_noErrors {s : State} (h : ¬causesAny (composeErrors s) = true) :
    execCompose s = .next (respond (composePass (passStart s)) 0) :=
  congrArg _ (if_neg h)

/-- A configuration error hides no cause: the same command raises the same causes again (R256). -/
@[simp] theorem mixErrors_raiseConfigError (s : State) (c : Causes) : mixErrors (raiseConfigError s c) = mixErrors s := rfl

@[simp] theorem composeErrors_raiseConfigError (s : State) (c : Causes) :
    composeErrors (raiseConfigError s c) = composeErrors s := rfl

/-- A pass leaves the rectangle and the installation that its causes are read from. -/
theorem mixErrors_afterPass (s : State) (v : Word) :
    mixErrors (respond (mixPass (passStart s)) v) = mixErrors s := by
  simp [mixErrors, rectValid]

theorem composeErrors_afterPass (s : State) (v : Word) :
    composeErrors (respond (composePass (passStart s)) v) = composeErrors s := by
  rw [composePass_frame, passStart_frame]
  rfl

@[simp] theorem rectW_composePass (s : State) : rectW (composePass s).regs = rectW s.regs := by
  rw [composePass_frame]; rfl

@[simp] theorem rectH_composePass (s : State) : rectH (composePass s).regs = rectH s.regs := by
  rw [composePass_frame]; rfl

/-- A COMPOSE leaves planes of the rectangle's size, which the next pass keeps. -/
theorem passStart_composePass (s : State) (v : Word) :
    passStart (respond (composePass (passStart s)) v) = respond (composePass (passStart s)) v :=
  passStart_eq_self (by simp) (by simp)

/-! ### MIX -/

/-- A MIX pass reads neither the output planes nor the response, which are all it changes. -/
theorem mixPass_mixPass (s : State) (v : Word) : mixPass (respond (mixPass s) v) = respond (mixPass s) v := rfl

theorem execMix_repeat {s t : State} (h : execMix s = .next t) : execMix t = .next t := by
  by_cases herr : causesAny (mixErrors s) = true
  · rw [execMix_of_errors herr] at h
    cases h
    rw [execMix_of_errors (by simpa using herr), mixErrors_raiseConfigError, raiseConfigError_raiseConfigError]
  · rw [execMix_of_noErrors herr] at h
    cases h
    rw [execMix_of_noErrors (by rwa [mixErrors_afterPass]), passStart_eq_self (by simp) (by simp), mixPass_mixPass]
    rfl

/-! ### COMPOSE -/

/-- `s` with other values where earlier commands have left theirs: the events `d` before its own in DIAG, the sprite planes
and the response. A compositor pass reads none of them. -/
def State.withPast (s : State) (d : List Collision) (pl : SpritePlanes) (v : Word) : State :=
  { s with diag := d ++ s.diag, sprC := pl.color, sprA := pl.attr, response := v }

section
variable (s : State) (d : List Collision) (pl : SpritePlanes) (v : Word)

theorem bucketRecord_withPast (ts : Buckets × State) (i : Byte) :
    bucketRecord (ts.1, ts.2.withPast d pl v) i =
      ((bucketRecord ts i).1, (bucketRecord ts i).2.withPast d pl v) := by
  have hrec : decodeRecord (ts.2.withPast d pl v) i = decodeRecord ts.2 i := rfl
  simp only [bucketRecord, hrec]
  cases (decodeRecord ts.2 i).active with
  | false => rfl
  | true =>
    simp only [if_true]
    have hbucket : bucketOf (ts.2.withPast d pl v).regs = bucketOf ts.2.regs := rfl
    rw [hbucket]
    cases bucketGet ts.1 (bucketOf ts.2.regs (decodeRecord ts.2 i)) with
    | none => rfl
    | some old => simp [State.withPast, collide]

theorem bucketing_withPast :
    bucketing (s.withPast d pl v) = ((bucketing s).1, (bucketing s).2.withPast d pl v) :=
  List.foldl_hom (fun ts : Buckets × State => (ts.1, ts.2.withPast d pl v)) (bucketRecord_withPast d pl v)
    (init := (List.replicate 256 none, s))

theorem drawBucket_withPast : drawBucket (s.withPast d pl v) = drawBucket s := rfl

/-- A compositor pass on a machine with another past draws the same planes and counts and appends the same events. -/
theorem composePass_withPast :
    composePass (s.withPast d pl v) =
      (composePass s).withPast d ⟨(composePass s).sprC, (composePass s).sprA⟩ v := by
  have hclear : { s.withPast d pl v with regs := { s.regs with sprCollisions := 0 } } =
      State.withPast { s with regs := { s.regs with sprCollisions := 0 } } d pl v := rfl
  have hregs : (s.withPast d pl v).regs = s.regs := rfl
  simp only [composePass, hregs, hclear, bucketing_withPast, drawBucket_withPast]
  rfl

end

/-- What a compositor pass reads of `s`, all else that a COMPOSE changes being cleared. -/
def State.passInputs (s : State) : State :=
  { s with regs := { s.regs with sprCollisions := 0 }, diag := [], sprC := [], sprA := [], response := 0 }

theorem composePass_eq_withPast (s : State) :
    composePass s = (composePass s.passInputs).withPast s.diag
      ⟨(composePass s.passInputs).sprC, (composePass s.passInputs).sprA⟩ s.response := by
  rw [← composePass_withPast _ _ ⟨s.sprC, s.sprA⟩]
  simp [composePass, State.withPast, State.passInputs]

theorem passInputs_composePass (s : State) (v : Word) : (respond (composePass s) v).passInputs = s.passInputs := by
  rw [composePass_frame]
  rfl

/-- A pass repeated draws the same planes, leaves the same count, and appends the events of the first once more. -/
theorem composePass_composePass (s : State) (v : Word) : ∃ es,
    (composePass s).diag = s.diag ++ es ∧
    composePass (respond (composePass s) v) =
      { respond (composePass s) v with diag := (composePass s).diag ++ es } := by
  refine ⟨(composePass s.passInputs).diag, by rw [composePass_eq_withPast s]; rfl, ?_⟩
  rw [composePass_eq_withPast (respond (composePass s) v), passInputs_composePass, composePass_eq_withPast s]
  generalize composePass s.passInputs = drawn
  rfl

theorem execCompose_repeat {s t u : State} (ht : execCompose s = .next t) (hu : execCompose t = .next u) :
    ∃ es, t.diag = s.diag ++ es ∧ u = { t with diag := t.diag ++ es } := by
  by_cases herr : causesAny (composeErrors s) = true
  · rw [execCompose_of_errors herr] at ht
    cases ht
    rw [execCompose_of_errors (by simpa using herr), composeErrors_raiseConfigError,
      raiseConfigError_raiseConfigError] at hu
    cases hu
    exact ⟨[], (List.append_nil _).symm, by rw [List.append_nil]⟩
  · rw [execCompose_of_noErrors herr] at ht
    cases ht
    rw [execCompose_of_noErrors (by rwa [composeErrors_afterPass]), passStart_composePass] at hu
    cases hu
    obtain ⟨es, hdiag, hagain⟩ := composePass_composePass (passStart s) 0
    refine ⟨es, by simpa using hdiag, ?_⟩
    rw [hagain]
    generalize composePass (passStart s) = drawn
    rfl

end Sys2Proof.Machine
end

section
/-! SUPPORT. Which indices each tile-draw variant writes a pixel for (R148-R154), and what a written pixel does at an
absent element. -/

namespace Sys2Proof.Machine

/-- The elements that do not exist are those beyond the planes' width or height (R39). -/
theorem inPlanes_eq_false_iff (s : State) (x y : Nat) :
    inPlanes s x y = false ↔ s.allocW ≤ x ∨ s.allocH ≤ y := by
  simp [inPlanes, Classical.or_iff_not_imp_left]

/-- A pixel to be written at an absent element faults (notes/assumptions/5.md). -/
theorem finishPixel_absent {s : State} {x y : Nat} {v : Option Pixel} (hout : inPlanes s x y = false)
    (hv : v.isSome = true) : finishPixel s x y v = .fault .planeElementAbsent := by
  obtain ⟨px, rfl⟩ := Option.isSome_iff_exists.1 hv
  simp [finishPixel, hout]

section
variable (r : Regs) (p : PixelArgs) (old : Word)

/-- The plain variants write for an opaque index alone (R151, R153). -/
theorem isSome_pixelForcePlain : (pixelForcePlain r p old).isSome = opaqueIndex r p := by
  unfold pixelForcePlain
  cases opaqueIndex r p <;> rfl

theorem isSome_pixelKeepPlain : (pixelKeepPlain r p old).isSome = opaqueIndex r p := by
  unfold pixelKeepPlain
  cases opaqueIndex r p <;> rfl

/-- The shadow-detecting variants write for the top code as well, whatever TMASK says of it (R149, R152, R154). -/
theorem isSome_pixelForceShadow :
    (pixelForceShadow r p old).isSome = (shadowIndex p || opaqueIndex r p) := by
  unfold pixelForceShadow
  cases shadowIndex p <;> cases opaqueIndex r p <;> rfl

theorem isSome_pixelKeepShadow :
    (pixelKeepShadow r p old).isSome = (shadowIndex p || opaqueIndex r p) := by
  unfold pixelKeepShadow
  cases shadowIndex p <;> cases opaqueIndex r p <;> rfl

end

/-- At an absent element the plain variants fault for an opaque index. -/
theorem exec_plain_absent {s : State} {p : PixelArgs} (hout : inPlanes s p.x p.y = false)
    (hp : opaqueIndex s.regs p = true) :
    exec (.tdForcePlain p) s = .fault .planeElementAbsent ∧ exec (.tdKeepPlain p) s = .fault .planeElementAbsent :=
  ⟨finishPixel_absent hout (by rw [isSome_pixelForcePlain, hp]),
    finishPixel_absent hout (by rw [isSome_pixelKeepPlain, hp])⟩

/-- At an absent element the shadow-detecting variants fault for the top code and for an opaque index. -/
theorem exec_shadow_absent {s : State} {p : PixelArgs} (hout : inPlanes s p.x p.y = false)
    (hp : (shadowIndex p || opaqueIndex s.regs p) = true) :
    exec (.tdForceShadow p) s = .fault .planeElementAbsent ∧ exec (.tdKeepShadow p) s = .fault .planeElementAbsent :=
  ⟨finishPixel_absent hout (by rw [isSome_pixelForceShadow, hp]),
    finishPixel_absent hout (by rw [isSome_pixelKeepShadow, hp])⟩

end Sys2Proof.Machine
end

section
/-! CERTIFICATES. The statements about memory (spec/20_memory.md). -/

namespace Sys2Proof.Machine

/-- Settles O27: a read changes only the response, a write and a MIX are idempotent, and a COMPOSE pass does not read
what the one before it left, but for DIAG, to which it appends. -/
theorem repeatedCommands : Obligations.RepeatedCommands := by
  unfold Obligations.RepeatedCommands
  refine ⟨?_, fun s t u ht hu => execCompose_repeat ht hu⟩
  rintro s t i (⟨a, rfl⟩ | ⟨a, rfl⟩ | ⟨a, d, rfl⟩ | ⟨a, d, rfl⟩ | rfl) h
  · cases h; rfl
  · cases h; rfl
  · exact execRegWr_repeat h
  · exact execSnapWr_repeat h
  · exact execMix_repeat h

/-- Settles O50: an opaque index or, with shadow detection, the top code gives a pixel, which faults where the element is
absent; the segments of a COMPOSE stay in the scan range, which is the rectangle. -/
theorem tileDrawOutsidePlanesFaults : Obligations.TileDrawOutsidePlanesFaults := by
  unfold Obligations.TileDrawOutsidePlanesFaults
  refine ⟨fun s p hout => ?_, fun s => ⟨_, rfl⟩, fun s r gx gy px py hgx hgy hpx hpy =>
    ⟨pixelArgsAt_x_lt hgx hpx, pixelArgsAt_y_lt hgy hpy⟩⟩
  have hout := (inPlanes_eq_false_iff s p.x p.y).2 hout
  constructor
  · intro hidx
    have hopaque : opaqueIndex s.regs p = true := decide_eq_true hidx
    obtain ⟨hforcePlain, hkeepPlain⟩ := exec_plain_absent hout hopaque
    obtain ⟨hforceShadow, hkeepShadow⟩ := exec_shadow_absent hout (by rw [hopaque, Bool.or_true])
    exact ⟨hforcePlain, hforceShadow, hkeepPlain, hkeepShadow⟩
  · intro htop
    have hshadow : shadowIndex p = true := decide_eq_true htop
    exact exec_shadow_absent hout (by rw [hshadow, Bool.true_or])

end Sys2Proof.Machine
end

section
/-! SUPPORT. The decoder and the encoder of spec/30_encoding.md: the fields of a word built from its fields, the decoder's
answer for each OP, that it inverts the encoder, and what a reserved OP does. -/

namespace Sys2Proof

open Laws

/-! ### The operands of a built word (R80) -/

@[simp] theorem addrField_commandWord (op : BitVec 5) (a : Addr) (d : Word) : addrField (commandWord op a d) = a := by
  unfold addrField commandWord
  rw [BitVec.extractLsb'_append_eq_of_le (by decide)]
  exact BitVec.extractLsb'_append_eq_right

@[simp] theorem dataField_commandWord (op : BitVec 5) (a : Addr) (d : Word) : dataField (commandWord op a d) = d :=
  BitVec.extractLsb'_append_eq_right

/-! ### The decoder's answer for each OP (R81, R82) -/

/-- The reserved values of OP (R82). -/
def ReservedOp (op : BitVec 5) : Prop := op = 0 ∨ 8 ≤ op.toNat

section
variable {w : CmdWord}

theorem decodeCommand_reset (h : opField w = 0x01) : decodeCommand w = .ok .reset := by
  simp [decodeCommand, h]

theorem decodeCommand_regWr (h : opField w = 0x02) :
    decodeCommand w = .ok (.regWr (addrField w) (dataField w)) := by
  simp [decodeCommand, h]

theorem decodeCommand_regRd (h : opField w = 0x03) : decodeCommand w = .ok (.regRd (addrField w)) := by
  simp [decodeCommand, h]

theorem decodeCommand_snapWr (h : opField w = 0x04) :
    decodeCommand w = .ok (.snapWr (addrField w) (dataField w)) := by
  simp [decodeCommand, h]

theorem decodeCommand_snapRd (h : opField w = 0x05) : decodeCommand w = .ok (.snapRd (addrField w)) := by
  simp [decodeCommand, h]

theorem decodeCommand_compose (h : opField w = 0x06) : decodeCommand w = .ok .compose := by
  simp [decodeCommand, h]

theorem decodeCommand_mix (h : opField w = 0x07) : decodeCommand w = .ok .mix := by
  simp [decodeCommand, h]

theorem decodeCommand_reserved (h : ReservedOp (opField w)) :
    decodeCommand w = .error (.reservedOp (opField w)) := by
  rcases h with hzero | hhigh
  · simp [decodeCommand, hzero]
  · unfold decodeCommand
    split
    case h_8 => rfl
    all_goals omega

end

theorem op_cases (op : BitVec 5) : op = 0x01 ∨ op = 0x02 ∨ op = 0x03 ∨ op = 0x04 ∨ op = 0x05 ∨ op = 0x06 ∨
    op = 0x07 ∨ ReservedOp op := by
  unfold ReservedOp
  bv_omega

/-- Everything the decoder can answer for `w`: one constructor per command of R81, and the rejection of R82. -/
inductive DecodeResult (w : CmdWord) : Except DecodeError Instr → Prop
  | reset (h : opField w = 0x01) : DecodeResult w (.ok .reset)
  | regWr (h : opField w = 0x02) : DecodeResult w (.ok (.regWr (addrField w) (dataField w)))
  | regRd (h : opField w = 0x03) : DecodeResult w (.ok (.regRd (addrField w)))
  | snapWr (h : opField w = 0x04) : DecodeResult w (.ok (.snapWr (addrField w) (dataField w)))
  | snapRd (h : opField w = 0x05) : DecodeResult w (.ok (.snapRd (addrField w)))
  | compose (h : opField w = 0x06) : DecodeResult w (.ok .compose)
  | mix (h : opField w = 0x07) : DecodeResult w (.ok .mix)
  | reserved (h : ReservedOp (opField w)) : DecodeResult w (.error (.reservedOp (opField w)))

theorem decodeResult_decodeCommand (w : CmdWord) : DecodeResult w (decodeCommand w) := by
  rcases op_cases (opField w) with h | h | h | h | h | h | h | h
  · exact decodeCommand_reset h ▸ .reset h
  · exact decodeCommand_regWr h ▸ .regWr h
  · exact decodeCommand_regRd h ▸ .regRd h
  · exact decodeCommand_snapWr h ▸ .snapWr h
  · exact decodeCommand_snapRd h ▸ .snapRd h
  · exact decodeCommand_compose h ▸ .compose h
  · exact decodeCommand_mix h ▸ .mix h
  · exact decodeCommand_reserved h ▸ .reserved h

/-- R81: the row of the opcode table a command word decodes to is selected by its OP. -/
theorem tableCode_of_decodeCommand {w : CmdWord} {i : Instr} (h : decodeCommand w = .ok i) :
    tableCode i = .inl (opField w) := by
  have hw := decodeResult_decodeCommand w
  rw [h] at hw
  cases hw with
  | reset hop | regWr hop | regRd hop | snapWr hop | snapRd hop | compose hop | mix hop =>
    exact congrArg Sum.inl hop.symm

theorem decodeCommand_error_iff (w : CmdWord) : (∃ e, decodeCommand w = .error e) ↔ ReservedOp (opField w) := by
  constructor
  · rintro ⟨e, h⟩
    have hw := decodeResult_decodeCommand w
    rw [h] at hw
    cases hw with
    | reserved hop => exact hop
  · exact fun hop => ⟨_, decodeCommand_reserved hop⟩

/-! ### The variant of each TDV code (R90) -/

section
variable (p : PixelArgs)

theorem decodeTileDraw_forcePlain : decodeTileDraw ⟨0b00, p⟩ = .tdForcePlain p := by
  simp [decodeTileDraw, tdvOfCode]

theorem decodeTileDraw_forceShadow : decodeTileDraw ⟨0b01, p⟩ = .tdForceShadow p := by
  simp [decodeTileDraw, tdvOfCode]

theorem decodeTileDraw_keepPlain : decodeTileDraw ⟨0b10, p⟩ = .tdKeepPlain p := by
  simp [decodeTileDraw, tdvOfCode]

theorem decodeTileDraw_keepShadow : decodeTileDraw ⟨0b11, p⟩ = .tdKeepShadow p := by
  simp [decodeTileDraw, tdvOfCode]

end

/-! ### The encoder (R84, R90) -/

theorem encodedCode_encode : ∀ i : Instr, encodedCode (encode i) = tableCode i
  | .reset => OpcodeField.reset
  | .regWr a d => OpcodeField.regWr a d
  | .regRd a => OpcodeField.regRd a
  | .snapWr a d => OpcodeField.snapWr a d
  | .snapRd a => OpcodeField.snapRd a
  | .compose => OpcodeField.compose
  | .mix => OpcodeField.mix
  | .tdForcePlain p => OpcodeField.tdForcePlain p
  | .tdForceShadow p => OpcodeField.tdForceShadow p
  | .tdKeepPlain p => OpcodeField.tdKeepPlain p
  | .tdKeepShadow p => OpcodeField.tdKeepShadow p

/-- The decoder inverts the encoder on every instruction, whatever its operands. -/
theorem decode_encode : ∀ i : Instr, decode (encode i) = .ok i
  | .reset => decodeCommand_reset (opField_commandWord _ 0 0)
  | .regWr a d => (decodeCommand_regWr (opField_commandWord _ a d)).trans (by simp)
  | .regRd a => (decodeCommand_regRd (opField_commandWord _ a _)).trans (by simp)
  | .snapWr a d => (decodeCommand_snapWr (opField_commandWord _ a d)).trans (by simp)
  | .snapRd a => (decodeCommand_snapRd (opField_commandWord _ a _)).trans (by simp)
  | .compose => decodeCommand_compose (opField_commandWord _ 0 0)
  | .mix => decodeCommand_mix (opField_commandWord _ 0 0)
  | .tdForcePlain p => congrArg Except.ok (decodeTileDraw_forcePlain p)
  | .tdForceShadow p => congrArg Except.ok (decodeTileDraw_forceShadow p)
  | .tdKeepPlain p => congrArg Except.ok (decodeTileDraw_keepPlain p)
  | .tdKeepShadow p => congrArg Except.ok (decodeTileDraw_keepShadow p)

/-- An instruction whose row has an OP is encoded as a command word with that OP. -/
theorem encode_of_tableCode {i : Instr} {op : BitVec 5} (h : tableCode i = .inl op) :
    ∃ v, encode i = .command v ∧ opField v = op := by
  have hcode := (encodedCode_encode i).trans h
  cases hv : encode i with
  | command v =>
    rw [hv] at hcode
    exact ⟨v, rfl, Sum.inl.inj hcode⟩
  | tileDraw it =>
    rw [hv] at hcode
    cases hcode

end Sys2Proof

namespace Sys2Proof.Machine

/-- A reserved OP sets E_CMD, bit 0 of STATUS, and answers 0x0000 (R82, R252). -/
theorem execReservedOp_eq (s : State) : execReservedOp s =
    { s with response := 0, regs := { s.regs with status := s.regs.status ||| 0x0001 } } := rfl

end Sys2Proof.Machine
end

section
/-! CERTIFICATES. The statements about the encoding and what a step performs (spec/30_encoding.md). -/

namespace Sys2Proof.Machine

/-- Settles O1: the fields of a built word are the fields it was built from, so its OP selects the command it encodes. -/
theorem decodeEncodeRoundTrip : Obligations.DecodeEncodeRoundTrip := by
  unfold Obligations.DecodeEncodeRoundTrip
  exact fun i _ => decode_encode i

/-- Settles O4: the decoded instruction's row has the word's OP, so its encoding is a command word with that OP, which the
decoder inverts. -/
theorem decodedCommandReencodes : Obligations.DecodedCommandReencodes := by
  unfold Obligations.DecodedCommandReencodes
  intro w i h
  obtain ⟨v, hv, hop⟩ := encode_of_tableCode (tableCode_of_decodeCommand h)
  have hround : decode (.command v) = .ok i := hv ▸ decode_encode i
  exact ⟨v, hv, hop, hround⟩

/-- Settles O2: the decoder's answer for each OP. -/
theorem opFieldSelectsCommand : Obligations.OpFieldSelectsCommand := by
  unfold Obligations.OpFieldSelectsCommand
  exact fun w => ⟨decodeCommand_reset, decodeCommand_regWr, decodeCommand_regRd, decodeCommand_snapWr,
    decodeCommand_snapRd, decodeCommand_compose, decodeCommand_mix⟩

/-- Settles O3: every OP is one of the seven commands' or reserved. -/
theorem onlyReservedOpsRejected : Obligations.OnlyReservedOpsRejected := by
  unfold Obligations.OnlyReservedOpsRejected
  exact decodeCommand_error_iff

/-- Settles O7: the slot comes before the port. -/
theorem stepRunsTileDraw : Obligations.StepRunsTileDraw := by
  unfold Obligations.StepRunsTileDraw
  exact fun s it h => step_pixelSlot h

/-- Settles O8: the decoder rejects the word, and E_CMD is raised in the state that accepted the command. -/
theorem reservedOpSetsECmd : Obligations.ReservedOpSetsECmd := by
  unfold Obligations.ReservedOpSetsECmd
  intro s c rest hslot hport hop
  rw [step_reserved hslot hport (decodeCommand_reserved hop), execReservedOp_eq]
  rfl

end Sys2Proof.Machine
end

section
/-! SUPPORT. One axis of the Tile Layout Generator (R113, R115-R120): the offset of a pixel, the footprint, which is the
same in every regime, and the texel cursor that a regime moves over it. -/

namespace Sys2Proof.Machine

/-! ### Geometry and offsets (R115, R116) -/

theorem centerFx_bounds (size : BitVec 2) : 512 ≤ centerFx size ∧ centerFx size ≤ 4096 := by
  revert size; decide

theorem widthFx_eq_two_mul (size : BitVec 2) : widthFx size = 2 * centerFx size := by
  revert size; decide

theorem centerFx_eq_texels (size : BitVec 2) : centerFx size = 32 * (16 * 2 ^ size.toNat) := by
  revert size; decide

theorem offsetOf_window (center : Coord) (p : Nat) : -512 ≤ offsetOf center p ∧ offsetOf center p ≤ 511 := by
  unfold offsetOf; omega

/-- How often the offsets have wrapped by pixel p (R116). -/
def lapOf (center : Coord) (p : Nat) : Int := ((p : Int) - center.toNat + 512) / 1024

theorem offsetOf_eq_sub_lap (center : Coord) (p : Nat) :
    offsetOf center p = p - center.toNat - 1024 * lapOf center p := by
  unfold offsetOf lapOf; omega

/-! ### The regime (R113, R117) -/

@[simp] theorem regimeOf_mirror (flip : Bool) : regimeOf flip true = .mirrored := rfl

@[simp] theorem regimeOf_flip : regimeOf true false = .reversed := rfl

@[simp] theorem regimeOf_neither : regimeOf false false = .forward := rfl

/-- Global flip on an axis is a reflected center and an inverted flip (R113). -/
theorem axisOf_globalFlip (pivot center : Coord) (size : BitVec 2) (zoom : Coord) (delta : Vector Word 8)
    (flip mirror : Bool) : axisOf pivot center size zoom delta flip mirror true =
      axisOf pivot (pivot - center) size zoom delta (!flip) mirror false := rfl

/-! ### The footprint and the cursor (R118-R120, R124) -/

/-- The offsets that sample, whatever the regime (R124). -/
def Axis.InFootprint (a : Axis) (k : Int) : Prop :=
  -centerFx a.size ≤ k * a.zoom.toNat ∧ k * a.zoom.toNat < centerFx a.size

/-- Whether the regime steps forward at offset k: in regime F, and in the left half of regime M (R118-R120). -/
def Axis.Ascends (a : Axis) (k : Int) : Prop := a.regime = .forward ∨ (a.regime = .mirrored ∧ k < 0)

/-- What offset k samples if its pixel samples at all; the condition is `a.Ascends k`, written out to be decidable
(R118-R120). -/
def Axis.cursor (a : Axis) (k : Int) : Sample :=
  if a.regime = .forward ∨ (a.regime = .mirrored ∧ k < 0) then
    ⟨centerFx a.size + k * a.zoom.toNat, a.zoom.toNat, 0⟩
  else ⟨centerFx a.size - 1 - k * a.zoom.toNat, -a.zoom.toNat, if a.regime = .mirrored then 1 else 0⟩

theorem cursor_of_ascends {a : Axis} {k : Int} (h : a.Ascends k) :
    a.cursor k = ⟨centerFx a.size + k * a.zoom.toNat, a.zoom.toNat, 0⟩ := if_pos h

theorem cursor_of_not_ascends {a : Axis} {k : Int} (h : ¬a.Ascends k) : a.cursor k =
    ⟨centerFx a.size - 1 - k * a.zoom.toNat, -a.zoom.toNat, if a.regime = .mirrored then 1 else 0⟩ := if_neg h

section
variable (a : Axis) (k : Int)

theorem inFootprint_withRegime (r : Regime) : ({ a with regime := r } : Axis).InFootprint k ↔ a.InFootprint k := .rfl

theorem cursor_forward : ({ a with regime := .forward } : Axis).cursor k =
    ⟨centerFx a.size + k * a.zoom.toNat, a.zoom.toNat, 0⟩ := cursor_of_ascends (.inl rfl)

theorem cursor_reversed : ({ a with regime := .reversed } : Axis).cursor k =
    ⟨centerFx a.size - 1 - k * a.zoom.toNat, -a.zoom.toNat, 0⟩ := cursor_of_not_ascends (by simp [Axis.Ascends])

variable {k}

theorem cursor_leftHalf (hk : k < 0) : ({ a with regime := .mirrored } : Axis).cursor k =
    ⟨centerFx a.size + k * a.zoom.toNat, a.zoom.toNat, 0⟩ := cursor_of_ascends (.inr ⟨rfl, hk⟩)

theorem cursor_rightHalf (hk : 0 ≤ k) : ({ a with regime := .mirrored } : Axis).cursor k =
    ⟨centerFx a.size - 1 - k * a.zoom.toNat, -a.zoom.toNat, 1⟩ :=
  cursor_of_not_ascends (by simp [Axis.Ascends, hk])

end

/-- The sampling conditions of the three regimes are one condition, the footprint. -/
theorem sampleAt_eq_some_iff {a : Axis} {k : Int} {m : Sample} :
    sampleAt a k = some m ↔ a.InFootprint k ∧ a.cursor k = m := by
  have hC := centerFx_bounds a.size
  have hW := widthFx_eq_two_mul a.size
  unfold Axis.InFootprint
  cases hr : a.regime with
  | forward =>
    rw [cursor_of_ascends (.inl hr)]
    simp only [sampleAt, hr, Option.ite_none_right_eq_some, Option.some.injEq]
    exact and_congr_left fun _ => by omega
  | reversed =>
    rw [cursor_of_not_ascends (by simp [Axis.Ascends, hr])]
    simp only [sampleAt, hr, Option.ite_none_right_eq_some, Option.some.injEq, reduceCtorEq, if_false]
    exact and_congr_left fun _ => by omega
  | mirrored =>
    by_cases hk : k < 0
    · have := Int.mul_nonpos_of_nonpos_of_nonneg hk.le (Int.natCast_nonneg a.zoom.toNat)
      rw [cursor_of_ascends (.inr ⟨hr, hk⟩)]
      simp only [sampleAt, hr, if_pos hk, Option.ite_none_right_eq_some, Option.some.injEq]
      exact and_congr_left fun _ => by omega
    · have := Int.mul_nonneg (not_lt.1 hk) (Int.natCast_nonneg a.zoom.toNat)
      rw [cursor_of_not_ascends (by simp [Axis.Ascends, hr, hk])]
      simp only [sampleAt, hr, if_neg hk, Option.ite_none_right_eq_some, Option.some.injEq, if_true]
      exact and_congr_left fun _ => by omega

theorem isSome_sampleAt_iff {a : Axis} {k : Int} : (sampleAt a k).isSome = true ↔ a.InFootprint k := by
  simp [Option.isSome_iff_exists, sampleAt_eq_some_iff]

/-- The footprint is an interval of offsets (R124). -/
theorem inFootprint_of_between {a : Axis} {i j k : Int} (hi : a.InFootprint i) (hk : a.InFootprint k) (hij : i ≤ j)
    (hjk : j ≤ k) : a.InFootprint j := by
  have hlo := Int.mul_le_mul_of_nonneg_right hij (Int.natCast_nonneg a.zoom.toNat)
  have hhi := Int.mul_le_mul_of_nonneg_right hjk (Int.natCast_nonneg a.zoom.toNat)
  unfold Axis.InFootprint at *
  omega

theorem zoom_pos {zoom : Coord} (h : zoom ≠ 0) : (0 : Int) < zoom.toNat := by
  rw [Int.natCast_pos, Nat.pos_iff_ne_zero]
  exact fun h0 => h (BitVec.eq_of_toNat_eq h0)

/-- The ends of the footprint by the divisions of R124. -/
theorem inFootprint_iff_between {a : Axis} (hz : a.zoom ≠ 0) (k : Int) : a.InFootprint k ↔
    -(centerFx a.size / a.zoom.toNat) ≤ k ∧
      k ≤ (centerFx a.size + a.zoom.toNat - 1) / a.zoom.toNat - 1 := by
  have hz := zoom_pos hz
  have hlo := Int.le_ediv_iff_mul_le (a := -k) (b := centerFx a.size) hz
  have hhi := Int.le_ediv_iff_mul_le (a := k + 1) (b := centerFx a.size + a.zoom.toNat - 1) hz
  rw [Int.neg_mul] at hlo
  rw [Int.add_mul, Int.one_mul] at hhi
  unfold Axis.InFootprint
  omega

/-- A sampling pixel samples inside the sprite (R118-R120). -/
theorem cursor_bounds {a : Axis} {k : Int} (h : a.InFootprint k) :
    0 ≤ (a.cursor k).t ∧ (a.cursor k).t < widthFx a.size := by
  obtain ⟨hlo, hhi⟩ := h
  rw [widthFx_eq_two_mul]
  by_cases hk : a.Ascends k
  · simp only [cursor_of_ascends hk]; omega
  · simp only [cursor_of_not_ascends hk]; omega

/-- Regime M samples the left half of the source alone (R120). -/
theorem cursor_lt_center_of_mirrored {a : Axis} {k : Int} (hz : a.zoom ≠ 0) (hr : a.regime = .mirrored) :
    (a.cursor k).t < centerFx a.size := by
  have hz := zoom_pos hz
  by_cases hk : k < 0
  · have := Int.mul_neg_of_neg_of_pos hk hz
    simp [cursor_of_ascends (.inr ⟨hr, hk⟩), this]
  · have := Int.mul_nonneg (not_lt.1 hk) hz.le
    rw [cursor_of_not_ascends (by simp [Axis.Ascends, hr, hk])]
    dsimp only
    omega

end Sys2Proof.Machine
end

section
/-! CERTIFICATES. The statements about one axis of the Tile Layout Generator (spec/41_tile_layout.md, R113-R120, R124). -/

namespace Sys2Proof.Machine

/-- Settles O36: the empty axis is the first case of the generator. -/
theorem emptyAxisHasNoSegments : Obligations.EmptyAxisHasNoSegments := by
  unfold Obligations.EmptyAxisHasNoSegments
  exact fun q h => if_pos h

/-- Settles O37: the generator sees global flip through its axis alone. -/
theorem globalFlipRemapsCenter : Obligations.GlobalFlipRemapsCenter := by
  unfold Obligations.GlobalFlipRemapsCenter
  intro q h
  unfold TlgCall.segments tlg
  rw [h, axisOf_globalFlip]

/-- Settles O38: an offset differs from p - center by whole laps. -/
theorem offsetCongruentInWindow : Obligations.OffsetCongruentInWindow := by
  unfold Obligations.OffsetCongruentInWindow
  intro center p
  refine ⟨?_, offsetOf_window center p⟩
  rw [offsetOf_eq_sub_lap]
  omega

/-- Settles O40: the regimes share one footprint. -/
theorem footprintSameInEveryRegime : Obligations.FootprintSameInEveryRegime := by
  unfold Obligations.FootprintSameInEveryRegime
  exact fun a k hz => isSome_sampleAt_iff.trans (inFootprint_iff_between hz k)

/-- Settles O39: the regime by its flags, then each regime's cursor over the common footprint. -/
theorem reversedMirrorsForward : Obligations.ReversedMirrorsForward := by
  unfold Obligations.ReversedMirrorsForward
  refine ⟨fun pivot center size zoom delta flip mirror gflip => ?_, ⟨rfl, rfl, fun _ => rfl⟩, fun a k => ?_⟩
  · cases mirror <;> cases gflip <;> cases flip <;> simp [axisOf]
  have hW := widthFx_eq_two_mul a.size
  have hC := centerFx_eq_texels a.size
  have hpos := centerFx_bounds a.size
  simp only [isSome_sampleAt_iff, sampleAt_eq_some_iff, inFootprint_withRegime]
  refine ⟨⟨by omega, hC⟩, ?_, ?_, ?_, ?_, ?_, fun hk => ⟨?_, ?_⟩, fun hk => ⟨?_, ?_⟩, ?_⟩
  · unfold Axis.InFootprint; omega
  · rw [Bool.eq_iff_iff, isSome_sampleAt_iff, isSome_sampleAt_iff]; rfl
  · rintro n ⟨-, rfl⟩; simp [cursor_reversed]
  · rintro n ⟨-, rfl⟩; simp [cursor_forward]
  · rintro n o ⟨-, rfl⟩ ⟨-, rfl⟩
    simp only [cursor_forward, cursor_reversed, true_and]
    omega
  · have := Int.mul_nonpos_of_nonpos_of_nonneg hk.le (Int.natCast_nonneg a.zoom.toNat)
    unfold Axis.InFootprint
    omega
  · rintro n ⟨-, rfl⟩; simp [cursor_leftHalf a hk]
  · have := Int.mul_nonneg hk (Int.natCast_nonneg a.zoom.toNat)
    unfold Axis.InFootprint
    omega
  · rintro n ⟨-, rfl⟩; simp [cursor_rightHalf a hk]
  · rintro hz n ⟨-, rfl⟩
    exact cursor_lt_center_of_mirrored (a := { a with regime := .mirrored }) hz rfl

end Sys2Proof.Machine
end

section
/-! SUPPORT. What the scan of the Tile Layout Generator finds (R121): its segments are the maximal runs of the sampling
pixels of the scan range, adjacent pixels being in one run where lap, tile and half agree. -/

namespace Sys2Proof.Machine

/-! ### Runs of pixels -/

/-- Whether a screen pixel samples (R118-R120). -/
def Axis.samples (a : Axis) (p : Nat) : Bool := (sampleAt a (offsetOf a.center p)).isSome

/-- What screen pixel p samples, if it does. -/
def Axis.pixelCursor (a : Axis) (p : Nat) : Sample := a.cursor (offsetOf a.center p)

/-- What the pixels of one segment have in common: how far offset and pixel are apart, which jumps at the wrap, the tile
and the half (R121). -/
def Axis.runClass (a : Axis) (p : Nat) : Int × Nat × Nat :=
  (offsetOf a.center p - p, tileOf (a.pixelCursor p).t, (a.pixelCursor p).half)

/-- Whether q extends a run that ends at p (R121). -/
def Axis.sameRun (a : Axis) (p q : Nat) : Bool := decide (q = p + 1 ∧ a.runClass q = a.runClass p)

/-- Pixels `p .. p + n` can stand in one segment. -/
def Axis.IsRun (a : Axis) (p n : Nat) : Prop :=
  ∀ q, p ≤ q → q ≤ p + n → a.samples q = true ∧ a.runClass q = a.runClass p

/-- The open segment of the scan when it has taken in pixels `p .. p + n` (R121). -/
def openRun (a : Axis) (p n : Nat) : OpenSegment :=
  let o := openAt a p (offsetOf a.center p) (a.pixelCursor p)
  { o with seg := { o.seg with screenMax := p + n }, lastK := offsetOf a.center (p + n) }

/-- The segment of a run of pixels (R111). -/
def segmentOfRun (a : Axis) (run : List Nat) : Segment := (openRun a (run.headD 0) (run.length - 1)).seg

/-- The maximal runs of the sampling pixels among `ps`. -/
def samplingRuns (a : Axis) (ps : List Nat) : List (List Nat) := (ps.filter a.samples).splitBy a.sameRun

section
variable {a : Axis} {p q n : Nat}

theorem samples_iff : a.samples p = true ↔ a.InFootprint (offsetOf a.center p) := isSome_sampleAt_iff

theorem sampleAt_of_samples (h : a.samples p = true) : sampleAt a (offsetOf a.center p) = some (a.pixelCursor p) :=
  sampleAt_eq_some_iff.2 ⟨samples_iff.1 h, rfl⟩

theorem sampleAt_of_not_samples (h : ¬a.samples p = true) : sampleAt a (offsetOf a.center p) = none := by
  simpa [Axis.samples] using h

theorem sameRun_iff : a.sameRun p q = true ↔ q = p + 1 ∧ a.runClass q = a.runClass p := decide_eq_true_iff

theorem sameRun_eq_false_of_succ_lt (h : p + 1 < q) : a.sameRun p q = false :=
  decide_eq_false fun hq => by omega

theorem isRun_zero (h : a.samples p = true) : a.IsRun p 0 := by
  intro q hlo hhi
  obtain rfl : q = p := by omega
  exact ⟨h, rfl⟩

theorem isRun_succ (h : a.IsRun p n) (hs : a.samples (p + n + 1) = true)
    (hc : a.runClass (p + n + 1) = a.runClass p) : a.IsRun p (n + 1) := by
  intro q hlo hhi
  rcases Nat.lt_or_ge (p + n) q with hq | hq
  · obtain rfl : q = p + n + 1 := by omega
    exact ⟨hs, hc⟩
  · exact h q hlo hq

theorem runClass_last (h : a.IsRun p n) : a.runClass (p + n) = a.runClass p := (h (p + n) (by omega) le_rfl).2

/-- The pixels of a run are one run of `splitBy`. -/
theorem isChain_of_isRun (h : a.IsRun p n) : (List.range' p (n + 1)).IsChain fun x y => a.sameRun x y = true := by
  refine (List.isChain_range' p (n + 1) 1).imp_of_mem_imp fun x y hx hy hxy => sameRun_iff.2 ⟨hxy, ?_⟩
  rw [List.mem_range'_1] at hx hy
  rw [(h x hx.1 (by omega)).2, (h y hy.1 (by omega)).2]

@[simp] theorem segmentOfRun_range' : segmentOfRun a (List.range' p (n + 1)) = (openRun a p n).seg := by
  simp [segmentOfRun, List.range'_succ]

theorem openRun_seg : (openRun a p n).seg =
    ⟨p, p + n, (a.pixelCursor p).t - 1024 * tileOf (a.pixelCursor p).t, (a.pixelCursor p).step,
      a.delta.toList.getD (tileOf (a.pixelCursor p).t) 0⟩ := rfl

@[simp] theorem openRun_lastK : (openRun a p n).lastK = offsetOf a.center (p + n) := rfl

theorem extendsSegment_iff {o : OpenSegment} {k : Int} {m : Sample} :
    extendsSegment o k m = true ↔ k = o.lastK + 1 ∧ tileOf m.t = o.tile ∧ m.half = o.half := by
  simp [extendsSegment, and_assoc]

/-- The scan extends an open run just where the next pixel is in the run's class (R121). -/
theorem extendsSegment_openRun_iff (h : a.IsRun p n) :
    extendsSegment (openRun a p n) (offsetOf a.center (p + n + 1)) (a.pixelCursor (p + n + 1)) = true ↔
      a.runClass (p + n + 1) = a.runClass p := by
  have hlast := congrArg Prod.fst (runClass_last h)
  simp only [Axis.runClass] at hlast
  rw [extendsSegment_iff, Axis.runClass, Axis.runClass, Prod.mk.injEq, Prod.mk.injEq]
  refine and_congr ?_ .rfl
  simp only [openRun_lastK]
  omega

/-! ### The steps of the scan (R121) -/

variable {ps : List Nat} {o : Option OpenSegment}

theorem scanSegments_skip (h : ¬a.samples p = true) :
    scanSegments a (p :: ps) o = closeSegment o ++ scanSegments a ps none := by
  simp only [scanSegments, sampleAt_of_not_samples h]

theorem scanSegments_open (h : a.samples p = true) :
    scanSegments a (p :: ps) none = scanSegments a ps (some (openRun a p 0)) := by
  simp only [scanSegments, sampleAt_of_samples h]
  rfl

theorem scanSegments_extend (h : a.IsRun p n) (hs : a.samples (p + n + 1) = true)
    (hc : a.runClass (p + n + 1) = a.runClass p) :
    scanSegments a ((p + n + 1) :: ps) (some (openRun a p n)) = scanSegments a ps (some (openRun a p (n + 1))) := by
  simp only [scanSegments, sampleAt_of_samples hs, (extendsSegment_openRun_iff h).2 hc, if_true]
  rfl

theorem scanSegments_split (h : a.IsRun p n) (hs : a.samples (p + n + 1) = true)
    (hc : a.runClass (p + n + 1) ≠ a.runClass p) : scanSegments a ((p + n + 1) :: ps) (some (openRun a p n)) =
      (openRun a p n).seg :: scanSegments a ps (some (openRun a (p + n + 1) 0)) := by
  simp only [scanSegments, sampleAt_of_samples hs, mt (extendsSegment_openRun_iff h).1 hc]
  rfl

end

/-! ### The scan finds the maximal runs -/

/-- A run that the next sampling pixel does not extend is a segment of its own. -/
theorem splitBy_run_append {a : Axis} {p n : Nat} {qs : List Nat} (h : a.IsRun p n)
    (hqs : ∀ q ∈ qs.head?, a.sameRun (p + n) q = false) :
    (List.range' p (n + 1) ++ qs).splitBy a.sameRun = List.range' p (n + 1) :: qs.splitBy a.sameRun := by
  rw [List.splitBy_append, List.splitBy_of_isChain (by simp) (isChain_of_isRun h), List.singleton_append]
  intro x hx q hq
  obtain rfl : p + n = x := by simpa [List.getLast?_range'] using hx
  exact hqs q hq

/-- From either state of the scan, what it still finds: with a run open, that run goes on. -/
theorem scanSegments_eq (a : Axis) (n : Nat) :
    (∀ lo, scanSegments a (List.range' lo n) none = (samplingRuns a (List.range' lo n)).map (segmentOfRun a)) ∧
    ∀ p l, a.IsRun p l → scanSegments a (List.range' (p + l + 1) n) (some (openRun a p l)) =
      ((List.range' p (l + 1) ++ (List.range' (p + l + 1) n).filter a.samples).splitBy a.sameRun).map
        (segmentOfRun a) := by
  induction n with
  | zero =>
    refine ⟨fun lo => rfl, fun p l h => ?_⟩
    rw [splitBy_run_append h (by simp)]
    simp [scanSegments, closeSegment]
  | succ n ih =>
    obtain ⟨ihNone, ihOpen⟩ := ih
    unfold samplingRuns at *
    refine ⟨fun lo => ?_, fun p l h => ?_⟩
    · rw [List.range'_succ]
      by_cases hs : a.samples lo = true
      · rw [scanSegments_open hs, ihOpen lo 0 (isRun_zero hs), List.filter_cons_of_pos hs]
        rfl
      · rw [scanSegments_skip hs, ihNone, List.filter_cons_of_neg hs]
        rfl
    · rw [List.range'_succ]
      by_cases hs : a.samples (p + l + 1) = true
      · rw [List.filter_cons_of_pos hs]
        by_cases hc : a.runClass (p + l + 1) = a.runClass p
        · rw [scanSegments_extend h hs hc]
          refine (ihOpen p (l + 1) (isRun_succ h hs hc)).trans ?_
          rw [List.range'_concat (n := l + 1)]
          simp [add_assoc]
        · rw [scanSegments_split h hs hc, ihOpen _ 0 (isRun_zero hs), splitBy_run_append h, List.map_cons,
            segmentOfRun_range']
          · rfl
          · rintro q ⟨⟩
            exact decide_eq_false fun hq => hc (hq.2.trans (runClass_last h))
      · rw [scanSegments_skip hs, ihNone, List.filter_cons_of_neg hs, splitBy_run_append h, List.map_cons,
          segmentOfRun_range']
        · rfl
        · intro q hq
          have := List.mem_range'_1.1 (List.mem_filter.1 (List.mem_of_mem_head? hq)).1
          exact sameRun_eq_false_of_succ_lt (by omega)

end Sys2Proof.Machine
end

section
/-! SUPPORT. The segments of a call, run by run: their pixels are the sampling pixels of the scan range (R122, R123), and
along a segment the cursor moves by its step inside one tile (R111). -/

namespace Sys2Proof.Machine

/-! ### The runs are intervals of pixels -/

/-- A chain of `sameRun` is an interval of pixels, all of the class of the first. -/
theorem eq_range'_of_isChain_sameRun {a : Axis} {p : Nat} {ps : List Nat}
    (h : (p :: ps).IsChain fun x y => a.sameRun x y = true) :
    p :: ps = List.range' p (ps.length + 1) ∧ ∀ q ∈ p :: ps, a.runClass q = a.runClass p := by
  induction ps generalizing p with
  | nil => simp
  | cons r ps ih =>
    obtain ⟨hpr, hchain⟩ := List.isChain_cons_cons.1 h
    obtain ⟨rfl, hclass⟩ := sameRun_iff.1 hpr
    obtain ⟨hrange, hall⟩ := ih hchain
    refine ⟨by rw [List.range'_succ, List.length_cons, ← hrange], fun q hq => ?_⟩
    rcases List.mem_cons.1 hq with rfl | hq
    · rfl
    · rw [hall q hq, hclass]

theorem samples_of_mem_samplingRuns {a : Axis} {ps run : List Nat} {q : Nat} (h : run ∈ samplingRuns a ps)
    (hq : q ∈ run) : q ∈ ps ∧ a.samples q = true := by
  rw [← List.mem_filter, ← List.flatten_splitBy a.sameRun (ps.filter a.samples)]
  exact List.mem_flatten.2 ⟨run, h, hq⟩

theorem exists_isRun_of_mem_samplingRuns {a : Axis} {ps run : List Nat} (h : run ∈ samplingRuns a ps) :
    ∃ p n, run = List.range' p (n + 1) ∧ a.IsRun p n := by
  obtain ⟨p, tl, rfl⟩ := List.exists_cons_of_ne_nil (List.ne_nil_of_mem_splitBy h)
  obtain ⟨hrange, hclass⟩ := eq_range'_of_isChain_sameRun (List.isChain_of_mem_splitBy h)
  refine ⟨p, tl.length, hrange, fun q hlo hhi => ?_⟩
  have hq : q ∈ p :: tl := by rw [hrange, List.mem_range'_1]; omega
  exact ⟨(samples_of_mem_samplingRuns h hq).2, hclass q hq⟩

/-! ### The segments of a call -/

theorem segments_of_zoom_zero {q : TlgCall} (hz : q.zoom = 0) : q.segments = [] := if_pos (.inl hz)

/-- The segments of a call are the maximal runs of its sampling pixels; an inverted scan range has no pixel. -/
theorem segments_eq_runs {q : TlgCall} (hz : q.zoom ≠ 0) :
    q.segments = (samplingRuns q.axis (scanRange q.scanMin q.scanMax)).map (segmentOfRun q.axis) := by
  unfold TlgCall.segments tlg
  split
  next hempty =>
    have hlt := BitVec.lt_def.1 (hempty.resolve_left hz)
    have hrange : scanRange q.scanMin q.scanMax = [] := by
      rw [scanRange, List.range'_eq_nil_iff]; omega
    rw [hrange]
    rfl
  next => exact (scanSegments_eq q.axis _).1 _

theorem mem_scanRange {lo hi : Coord} {p : Nat} : p ∈ scanRange lo hi ↔ lo.toNat ≤ p ∧ p ≤ hi.toNat := by
  rw [scanRange, List.mem_range'_1]; omega

theorem exists_isRun_of_mem_segments {q : TlgCall} {g : Segment} (hg : g ∈ q.segments) :
    ∃ p n, q.axis.IsRun p n ∧ g = (openRun q.axis p n).seg := by
  by_cases hz : q.zoom = 0
  · rw [segments_of_zoom_zero hz] at hg
    cases hg
  · rw [segments_eq_runs hz] at hg
    obtain ⟨run, hrun, rfl⟩ := List.mem_map.1 hg
    obtain ⟨p, n, rfl, h⟩ := exists_isRun_of_mem_samplingRuns hrun
    exact ⟨p, n, h, segmentOfRun_range'⟩

theorem screenMin_le_screenMax {q : TlgCall} {g : Segment} (hg : g ∈ q.segments) : g.screenMin ≤ g.screenMax := by
  obtain ⟨p, n, -, rfl⟩ := exists_isRun_of_mem_segments hg
  exact Nat.le_add_right p n

@[simp] theorem segmentPixels_openRun (a : Axis) (p n : Nat) :
    segmentPixels (openRun a p n).seg = List.range' p (n + 1) := by
  unfold segmentPixels
  congr 1
  exact Nat.sub_eq_of_eq_add (by simp only [openRun_seg]; omega)

/-- Segment by segment, the pixels of a result are the sampling pixels of the scan range in order (R123). -/
theorem flatMap_segmentPixels {q : TlgCall} (hz : q.zoom ≠ 0) :
    q.segments.flatMap segmentPixels = (scanRange q.scanMin q.scanMax).filter q.axis.samples := by
  have hpixels : ∀ run ∈ samplingRuns q.axis (scanRange q.scanMin q.scanMax),
      segmentPixels (segmentOfRun q.axis run) = run := by
    intro run hrun
    obtain ⟨p, n, rfl, -⟩ := exists_isRun_of_mem_samplingRuns hrun
    rw [segmentOfRun_range', segmentPixels_openRun]
  rw [segments_eq_runs hz, List.flatMap_map, List.flatMap_congr hpixels, List.flatMap_id', samplingRuns,
    List.flatten_splitBy]

theorem pairwise_lt_filter_scanRange (lo hi : Coord) (f : Nat → Bool) :
    ((scanRange lo hi).filter f).Pairwise (· < ·) :=
  (List.pairwise_lt_range' _).filter f

/-! ### Counting covered pixels -/

theorem count_segmentPixels (g : Segment) (p : Nat) :
    (segmentPixels g).count p = if coversPixel p g = true then 1 else 0 := by
  have hnodup : (segmentPixels g).Nodup := List.nodup_range'
  rw [hnodup.count]
  simp [mem_segmentPixels, coversPixel]

theorem count_flatMap_segmentPixels (gs : List Segment) (p : Nat) :
    (gs.flatMap segmentPixels).count p = (gs.filter (coversPixel p)).length := by
  rw [← List.countP_eq_length_filter]
  induction gs with
  | nil => rfl
  | cons g gs ih => rw [List.flatMap_cons, List.count_append, List.countP_cons, ih, count_segmentPixels, add_comm]

/-! ### The cursor along a run (R111) -/

theorem half_cursor_of_mirrored {a : Axis} {k : Int} (hr : a.regime = .mirrored) :
    (a.cursor k).half = if k < 0 then 0 else 1 := by
  unfold Axis.cursor
  split <;> simp_all

/-- The half tells which way the cursor moves (R118-R120). -/
theorem ascends_iff_of_half_eq {a : Axis} {i j : Int} (h : (a.cursor i).half = (a.cursor j).half) :
    a.Ascends i ↔ a.Ascends j := by
  unfold Axis.Ascends
  cases hr : a.regime with
  | forward => simp
  | reversed => simp
  | mirrored =>
    rw [half_cursor_of_mirrored hr, half_cursor_of_mirrored hr] at h
    simp only [reduceCtorEq, true_and, false_or]
    split_ifs at h <;> omega

/-- Within a half the cursor moves by its step. -/
theorem cursor_advance {a : Axis} {i j : Int} (h : (a.cursor i).half = (a.cursor j).half) :
    (a.cursor j).step = (a.cursor i).step ∧ (a.cursor j).t = (a.cursor i).t + (j - i) * (a.cursor i).step := by
  have hdir := ascends_iff_of_half_eq h
  by_cases hi : a.Ascends i
  · simp only [cursor_of_ascends hi, cursor_of_ascends (hdir.1 hi), true_and]
    ring
  · simp only [cursor_of_not_ascends hi, cursor_of_not_ascends (mt hdir.2 hi), true_and]
    ring

/-- The pixels of a run sample one tile, the positions being as many steps apart as the pixels. -/
theorem cursor_of_isRun {a : Axis} {p₀ n p : Nat} (h : a.IsRun p₀ n) (hmin : p₀ ≤ p) (hmax : p ≤ p₀ + n) :
    a.samples p = true ∧ tileOf (a.pixelCursor p).t = tileOf (a.pixelCursor p₀).t ∧
      (a.pixelCursor p).step = (a.pixelCursor p₀).step ∧
      (a.pixelCursor p).t = (a.pixelCursor p₀).t + ((p : Int) - p₀) * (a.pixelCursor p₀).step := by
  obtain ⟨hs, hclass⟩ := h p hmin hmax
  simp only [Axis.runClass, Prod.mk.injEq] at hclass
  obtain ⟨hlap, htile, hhalf⟩ := hclass
  have hoffset : (p : Int) - p₀ = offsetOf a.center p - offsetOf a.center p₀ := by omega
  rw [hoffset]
  exact ⟨hs, htile, cursor_advance hhalf.symm⟩

theorem tileOf_cursor_lt_eight {a : Axis} {k : Int} (h : a.InFootprint k) : tileOf (a.cursor k).t < 8 := by
  have hC := centerFx_bounds a.size
  obtain ⟨hlo, hhi⟩ := cursor_bounds h
  rw [widthFx_eq_two_mul] at hhi
  unfold tileOf
  omega

theorem tileLocal_bounds {t : Int} (h : 0 ≤ t) :
    0 ≤ t - 1024 * (tileOf t : Int) ∧ t - 1024 * (tileOf t : Int) < 1024 := by
  unfold tileOf; omega

end Sys2Proof.Machine
end

section
/-! CERTIFICATES. The statements about the pixels and texels of the segments (spec/41_tile_layout.md, R111, R121-R123). -/

namespace Sys2Proof.Machine

/-- Settles O41: the pixels of the segments, in order, are a part of the scan range. -/
theorem segmentsOrderedInScanRange : Obligations.SegmentsOrderedInScanRange := by
  unfold Obligations.SegmentsOrderedInScanRange
  refine fun q => ⟨fun g hg => ?_, ?_⟩
  · obtain ⟨hlo, hhi⟩ := tlg_within hg
    exact ⟨hlo, screenMin_le_screenMax hg, hhi⟩
  by_cases hz : q.zoom = 0
  · rw [segments_of_zoom_zero hz]
    exact .nil
  have hpixels := pairwise_lt_filter_scanRange q.scanMin q.scanMax q.axis.samples
  rw [← flatMap_segmentPixels hz] at hpixels
  exact (List.pairwise_flatMap.1 hpixels).2.imp_of_mem fun hg hh hlt =>
    hlt _ (mem_segmentPixels.2 ⟨screenMin_le_screenMax hg, le_rfl⟩) _
      (mem_segmentPixels.2 ⟨le_rfl, screenMin_le_screenMax hh⟩)

/-- Settles O42: both counts are counts in the list of all segments' pixels. -/
theorem segmentsCoverExactlyOnce : Obligations.SegmentsCoverExactlyOnce := by
  unfold Obligations.SegmentsCoverExactlyOnce
  refine fun q hz => ⟨fun p => ?_, ?_⟩
  · have hnodup : ((scanRange q.scanMin q.scanMax).filter q.axis.samples).Nodup :=
      (pairwise_lt_filter_scanRange _ _ _).imp Nat.ne_of_lt
    rw [← count_flatMap_segmentPixels, flatMap_segmentPixels hz, hnodup.count]
    exact if_congr (by rw [List.mem_filter, mem_scanRange, and_assoc]; rfl) rfl rfl
  · calc (q.segments.map fun g => g.screenMax + 1 - g.screenMin).sum
        = (q.segments.flatMap segmentPixels).length := by simp [List.length_flatMap, segmentPixels]
      _ = ((scanRange q.scanMin q.scanMax).filter fun p => (q.sample p).isSome).length := by
        rw [flatMap_segmentPixels hz]; rfl

/-- Settles O43: a pixel of a segment has the lap, tile and half of the segment's first pixel, from which the cursor has
moved by the segment's step. -/
theorem segmentTexelsStayInTile : Obligations.SegmentTexelsStayInTile := by
  unfold Obligations.SegmentTexelsStayInTile
  intro q g p hg hmin hmax
  obtain ⟨p₀, n, hrun, rfl⟩ := exists_isRun_of_mem_segments hg
  obtain ⟨hs, htile, hstep, ht⟩ := cursor_of_isRun hrun hmin hmax
  rw [openRun_seg]
  have hfoot := samples_iff.1 hs
  obtain ⟨hlo, hhi⟩ := tileLocal_bounds (cursor_bounds hfoot).1
  have htexel : (q.axis.pixelCursor p₀).t - 1024 * tileOf (q.axis.pixelCursor p₀).t +
      ((p : Int) - p₀) * (q.axis.pixelCursor p₀).step =
        (q.axis.pixelCursor p).t - 1024 * tileOf (q.axis.pixelCursor p).t := by
    rw [htile, ht]
    ring
  refine ⟨q.axis.pixelCursor p, sampleAt_of_samples hs, hstep.symm, tileOf_cursor_lt_eight hfoot,
    congrArg (q.delta.toList.getD · 0) htile.symm, htexel, hlo, hhi, ?_⟩
  simp only [segmentTexel, htexel]
  unfold Axis.pixelCursor
  omega

end Sys2Proof.Machine
end

section
/-! SUPPORT. How many runs a call can have (R125): pixels are numbered by lap and by how many tiles the regime passes
before theirs, eight tiles to a lap; the number rises from run to run, and by at most eight over a scan range. -/

namespace Sys2Proof.Machine

/-- How many tiles the regime passes before this one: forward it meets tile 0 first, backward tile 7. -/
def Sample.tileRank (m : Sample) : Int := if m.step < 0 then 7 - tileOf m.t else tileOf m.t

/-- The number of a pixel: its lap, eight tiles long, and its tile's rank. -/
def Axis.runKey (a : Axis) (p : Nat) : Int := 8 * lapOf a.center p + (a.pixelCursor p).tileRank

/-! ### The rank along the offsets -/

section
variable {a : Axis} {i j k : Int}

theorem tileRank_of_ascends (h : a.Ascends k) : (a.cursor k).tileRank = tileOf (a.cursor k).t := by
  refine if_neg ?_
  rw [cursor_of_ascends h]
  exact not_lt.2 (Int.natCast_nonneg _)

theorem tileRank_of_not_ascends (hz : a.zoom ≠ 0) (h : ¬a.Ascends k) :
    (a.cursor k).tileRank = 7 - tileOf (a.cursor k).t := by
  refine if_pos ?_
  rw [cursor_of_not_ascends h]
  exact neg_neg_of_pos (zoom_pos hz)

theorem tileRank_bounds (hz : a.zoom ≠ 0) (hk : a.InFootprint k) :
    0 ≤ (a.cursor k).tileRank ∧ (a.cursor k).tileRank ≤ 7 := by
  have := tileOf_cursor_lt_eight hk
  by_cases h : a.Ascends k
  · rw [tileRank_of_ascends h]; omega
  · rw [tileRank_of_not_ascends hz h]; omega

theorem mirrored_of_ascends_of_not (hi : a.Ascends i) (hj : ¬a.Ascends j) : a.regime = .mirrored ∧ i < j := by
  rcases hi with hr | ⟨hr, hi⟩
  · exact absurd (.inl hr) hj
  · exact ⟨hr, lt_of_not_ge fun h => hj (.inr ⟨hr, h.trans_lt hi⟩)⟩

/-- The left half of regime M passes at most the four tiles of the source half, before all of the right half. -/
theorem tileRank_lt_of_ascends_of_not (hz : a.zoom ≠ 0) (hi : a.Ascends i) (hj : ¬a.Ascends j) :
    (a.cursor i).tileRank < (a.cursor j).tileRank := by
  have hr := (mirrored_of_ascends_of_not hi hj).1
  have hti := cursor_lt_center_of_mirrored (k := i) hz hr
  have htj := cursor_lt_center_of_mirrored (k := j) hz hr
  have hC := centerFx_bounds a.size
  rw [tileRank_of_ascends hi, tileRank_of_not_ascends hz hj]
  unfold tileOf
  omega

/-- The rank never falls as the offset rises. -/
theorem tileRank_mono (hz : a.zoom ≠ 0) (hij : i ≤ j) : (a.cursor i).tileRank ≤ (a.cursor j).tileRank := by
  have hmul := Int.mul_le_mul_of_nonneg_right hij (Int.natCast_nonneg a.zoom.toNat)
  by_cases hi : a.Ascends i <;> by_cases hj : a.Ascends j
  · rw [tileRank_of_ascends hi, tileRank_of_ascends hj, cursor_of_ascends hi, cursor_of_ascends hj]
    simp only [tileOf]
    omega
  · exact (tileRank_lt_of_ascends_of_not hz hi hj).le
  · exact absurd (mirrored_of_ascends_of_not hj hi).2 hij.not_gt
  · rw [tileRank_of_not_ascends hz hi, tileRank_of_not_ascends hz hj, cursor_of_not_ascends hi,
      cursor_of_not_ascends hj]
    simp only [tileOf]
    omega

/-- The rank tells the tile and the half. -/
theorem tile_half_eq_of_tileRank_eq (hz : a.zoom ≠ 0) (h : (a.cursor i).tileRank = (a.cursor j).tileRank) :
    tileOf (a.cursor i).t = tileOf (a.cursor j).t ∧ (a.cursor i).half = (a.cursor j).half := by
  by_cases hi : a.Ascends i <;> by_cases hj : a.Ascends j
  · rw [tileRank_of_ascends hi, tileRank_of_ascends hj] at h
    exact ⟨Int.ofNat.inj h, by rw [cursor_of_ascends hi, cursor_of_ascends hj]⟩
  · exact absurd h (tileRank_lt_of_ascends_of_not hz hi hj).ne
  · exact absurd h (tileRank_lt_of_ascends_of_not hz hj hi).ne'
  · rw [tileRank_of_not_ascends hz hi, tileRank_of_not_ascends hz hj] at h
    exact ⟨by omega, by rw [cursor_of_not_ascends hi, cursor_of_not_ascends hj]⟩

end

/-! ### The number along the pixels -/

section
variable {a : Axis} {p q : Nat}

/-- A scan range wraps at most once (R116). -/
theorem lapOf_eq_or_succ (center : Coord) (hpq : p ≤ q) (hlt : q < p + 1024) :
    lapOf center q = lapOf center p ∨ lapOf center q = lapOf center p + 1 := by
  unfold lapOf; omega

/-- Within a lap the offset keeps up with the pixel; past a wrap it is below all offsets of the scan range before. -/
theorem runKey_window (hz : a.zoom ≠ 0) (hp : a.samples p = true) (hq : a.samples q = true) (hpq : p ≤ q)
    (hlt : q < p + 1024) : a.runKey p ≤ a.runKey q ∧ a.runKey q ≤ a.runKey p + 8 ∧
      (a.runKey p = a.runKey q → lapOf a.center q = lapOf a.center p) := by
  have hkp := offsetOf_eq_sub_lap a.center p
  have hkq := offsetOf_eq_sub_lap a.center q
  have hrp : 0 ≤ (a.pixelCursor p).tileRank ∧ (a.pixelCursor p).tileRank ≤ 7 :=
    tileRank_bounds hz (samples_iff.1 hp)
  have hrq : 0 ≤ (a.pixelCursor q).tileRank ∧ (a.pixelCursor q).tileRank ≤ 7 :=
    tileRank_bounds hz (samples_iff.1 hq)
  unfold Axis.runKey
  rcases lapOf_eq_or_succ a.center hpq hlt with hlap | hlap
  · have : (a.pixelCursor p).tileRank ≤ (a.pixelCursor q).tileRank := tileRank_mono hz (by omega)
    omega
  · have : (a.pixelCursor q).tileRank ≤ (a.pixelCursor p).tileRank := tileRank_mono hz (by omega)
    omega

/-- Two sampling pixels with one number and no sampling pixel between them are neighbours in one run: in one lap the
footprint has no gap (R124). -/
theorem sameRun_of_runKey_eq (hz : a.zoom ≠ 0) (hp : a.samples p = true) (hq : a.samples q = true) (hpq : p < q)
    (hlt : q < p + 1024) (hgap : ∀ x, p < x → x < q → ¬a.samples x = true) (hkey : a.runKey p = a.runKey q) :
    a.sameRun p q = true := by
  have hlap := (runKey_window hz hp hq hpq.le hlt).2.2 hkey
  have hkp := offsetOf_eq_sub_lap a.center p
  have hkq := offsetOf_eq_sub_lap a.center q
  have hnext : q = p + 1 := by
    by_contra hne
    have hlapNext : lapOf a.center (p + 1) = lapOf a.center p := by unfold lapOf at *; omega
    have hk := offsetOf_eq_sub_lap a.center (p + 1)
    refine hgap (p + 1) (by omega) (by omega) (samples_iff.2 ?_)
    exact inFootprint_of_between (samples_iff.1 hp) (samples_iff.1 hq) (by omega) (by omega)
  have hrank : (a.pixelCursor q).tileRank = (a.pixelCursor p).tileRank := by unfold Axis.runKey at hkey; omega
  obtain ⟨htile, hhalf⟩ := tile_half_eq_of_tileRank_eq hz hrank
  refine sameRun_iff.2 ⟨hnext, Prod.ext ?_ (Prod.ext htile hhalf)⟩
  simp only [Axis.runClass]
  omega

end

/-! ### The number rises from run to run -/

/-- Neighbours in a filtered interval have no kept element between them. -/
theorem isChain_filter_range' (f : Nat → Bool) (lo n : Nat) :
    ((List.range' lo n).filter f).IsChain fun p q => p < q ∧ ∀ x, p < x → x < q → ¬f x = true := by
  induction n generalizing lo with
  | zero => exact .nil
  | succ n ih =>
    rw [List.range'_succ, List.filter_cons]
    split
    · refine List.isChain_cons.2 ⟨fun q hq => ?_, ih _⟩
      rw [List.head?_filter] at hq
      obtain ⟨-, hmem, hbefore⟩ := List.find?_range'_eq_some.1 hq
      exact ⟨(List.mem_range'_1.1 hmem).1, fun x hlo hhi => by simpa using hbefore x hlo hhi⟩
    · exact ih _

/-- Neighbouring sampling pixels either are in one run or have rising numbers. -/
theorem isChain_sameRun_or_runKey_lt {a : Axis} (hz : a.zoom ≠ 0) (lo hi : Coord) :
    ((scanRange lo hi).filter a.samples).IsChain fun p q => a.sameRun p q = false → a.runKey p < a.runKey q := by
  refine (isChain_filter_range' _ _ _).imp_of_mem_imp fun p q hp hq ⟨hpq, hgap⟩ hrun => ?_
  obtain ⟨hp, hsp⟩ := List.mem_filter.1 hp
  obtain ⟨hq, hsq⟩ := List.mem_filter.1 hq
  have := hi.isLt
  have := (mem_scanRange.1 hq).2
  refine lt_of_le_of_ne (runKey_window hz hsp hsq hpq.le (by omega)).1 fun hkey => ?_
  rw [sameRun_of_runKey_eq hz hsp hsq hpq (by omega) hgap hkey] at hrun
  cases hrun

theorem isChain_and {α : Type} {R S : α → α → Prop} {l : List α} (hR : l.IsChain R) (hS : l.IsChain S) :
    l.IsChain fun x y => R x y ∧ S x y := by
  rw [List.isChain_iff_getElem] at *
  exact fun i hi => ⟨hR i hi, hS i hi⟩

/-- A run's first pixel has a lower number than the next run's first pixel. -/
theorem isChain_runKey_samplingRuns {a : Axis} (hz : a.zoom ≠ 0) (lo hi : Coord) :
    ((samplingRuns a (scanRange lo hi)).map fun run => a.runKey (run.headD 0)).IsChain (· < ·) := by
  have hsplit := List.isChain_getLast_head_splitBy a.sameRun ((scanRange lo hi).filter a.samples)
  have hjoin := isChain_sameRun_or_runKey_lt hz lo hi
  rw [← List.flatten_splitBy a.sameRun (List.filter _ _),
    List.isChain_flatten (List.nil_notMem_splitBy _ _)] at hjoin
  refine (List.isChain_map _).2 ((isChain_and hsplit hjoin.2).imp_of_mem_imp ?_)
  rintro r s hr - ⟨⟨hne, hne', hsplit⟩, hrise⟩
  obtain ⟨p, n, rfl, hrun⟩ := exists_isRun_of_mem_samplingRuns hr
  have hrise := hrise _ (List.getLast_mem_getLast? hne) _ (List.head_mem_head? hne') hsplit
  obtain ⟨hlast, hsLast⟩ := samples_of_mem_samplingRuns hr (List.getLast_mem hne)
  have hle : p ≤ (List.range' p (n + 1)).getLast hne := (List.mem_range'_1.1 (List.getLast_mem hne)).1
  have := (mem_scanRange.1 hlast).2
  have := hi.isLt
  calc a.runKey p ≤ a.runKey ((List.range' p (n + 1)).getLast hne) :=
        (runKey_window hz (hrun p le_rfl (by omega)).1 hsLast hle (by omega)).1
    _ < a.runKey (s.head hne') := hrise
    _ = a.runKey (s.headD 0) := by
      rw [List.headD_eq_head?, List.head?_eq_some_head hne', Option.getD_some]

theorem length_le_nine_of_pairwise_lt {K : Int} {l : List Int} (hl : l.Pairwise (· < ·))
    (hbounds : ∀ k ∈ l, K ≤ k ∧ k ≤ K + 8) : l.length ≤ 9 := by
  calc l.length = l.toFinset.card := (List.toFinset_card_of_nodup (hl.imp ne_of_lt)).symm
    _ ≤ (Finset.Icc K (K + 8)).card :=
      Finset.card_le_card fun k hk => Finset.mem_Icc.2 (hbounds k (List.mem_toFinset.1 hk))
    _ = 9 := by rw [Int.card_Icc]; omega

theorem length_samplingRuns_le_nine {a : Axis} (hz : a.zoom ≠ 0) (lo hi : Coord) :
    (samplingRuns a (scanRange lo hi)).length ≤ 9 := by
  have hrise := (isChain_runKey_samplingRuns hz lo hi).pairwise
  have hmem : ∀ run ∈ samplingRuns a (scanRange lo hi), run.headD 0 ∈ run := fun run hrun => by
    obtain ⟨p, n, rfl, -⟩ := exists_isRun_of_mem_samplingRuns hrun
    simp [List.range'_succ]
  have horder := pairwise_lt_filter_scanRange lo hi a.samples
  rw [← List.flatten_splitBy a.sameRun (List.filter _ _), List.pairwise_flatten, ← samplingRuns] at horder
  have hsamples := fun run hrun => samples_of_mem_samplingRuns hrun (hmem run hrun)
  cases hruns : samplingRuns a (scanRange lo hi) with
  | nil => exact Nat.zero_le 9
  | cons r rs =>
    rw [hruns] at hrise hmem horder hsamples
    rw [← List.length_map]
    refine length_le_nine_of_pairwise_lt (K := a.runKey (r.headD 0)) hrise fun k hk => ?_
    obtain ⟨run, hrun, rfl⟩ := List.mem_map.1 hk
    obtain ⟨hfirst, hsFirst⟩ := hsamples r List.mem_cons_self
    obtain ⟨hhead, hsHead⟩ := hsamples run hrun
    have hle : r.headD 0 ≤ run.headD 0 := by
      rcases List.mem_cons.1 hrun with rfl | hrest
      · exact le_rfl
      · exact ((List.pairwise_cons.1 horder.2).1 run hrest _ (hmem r List.mem_cons_self) _ (hmem run hrun)).le
    have := (mem_scanRange.1 hhead).2
    have := hi.isLt
    obtain ⟨hlow, hhigh, -⟩ := runKey_window hz hsFirst hsHead hle (by omega)
    exact ⟨hlow, hhigh⟩

end Sys2Proof.Machine
end

section
/-! CERTIFICATES. The statement about the number of segments (spec/41_tile_layout.md, R125). -/

namespace Sys2Proof.Machine

/-- Settles O44: the runs' numbers rise within a window of nine. -/
theorem atMostNineSegments : Obligations.AtMostNineSegments := by
  unfold Obligations.AtMostNineSegments
  intro q
  by_cases hz : q.zoom = 0
  · rw [segments_of_zoom_zero hz]
    exact Nat.zero_le 9
  · rw [segments_eq_runs hz, List.length_map]
    exact length_samplingRuns_le_nine hz _ _

end Sys2Proof.Machine
end

section
/-! SUPPORT. A forward sprite at unity zoom whose footprint lies in the scan range (R127): no offset wraps, the sampling
pixels are the footprint, and its tiles are its runs of 16 pixels. -/

namespace Sys2Proof.Machine

/-- The tiles along an axis, `W / 16` (R115). -/
def tileCount (size : BitVec 2) : Nat := 2 ^ size.toNat

theorem width_eq_tiles (size : BitVec 2) : 16 <<< size.toNat = 16 * tileCount size := Nat.shiftLeft_eq ..

theorem centerFx_eq_tiles (size : BitVec 2) : centerFx size = 512 * tileCount size := by
  rw [centerFx_eq_texels, tileCount]; push_cast; ring

/-- The premises of R127 about an axis, the footprint being eight pixels per tile to either side of the center. -/
structure Axis.UnityIn (a : Axis) (lo hi : Coord) : Prop where
  zoom    : a.zoom = 64
  regime  : a.regime = .forward
  left    : lo.toNat + 8 * tileCount a.size ≤ a.center.toNat
  right   : a.center.toNat + 8 * tileCount a.size ≤ hi.toNat + 1

/-- The first pixel of tile n of the footprint. -/
def Axis.tilePixel (a : Axis) (n : Nat) : Nat := a.center.toNat - 8 * tileCount a.size + 16 * n

section
variable {a : Axis} {lo hi : Coord}

theorem Axis.UnityIn.cursor_eq (h : a.UnityIn lo hi) (k : Int) :
    a.cursor k = ⟨512 * tileCount a.size + k * 64, 64, 0⟩ := by
  rw [cursor_of_ascends (.inl h.regime), h.zoom, centerFx_eq_tiles]; rfl

/-- The pixels that sample are the footprint, which does not wrap. -/
theorem Axis.UnityIn.samples_iff (h : a.UnityIn lo hi) {p : Nat} (hp : p ≤ hi.toNat) : a.samples p = true ↔
    a.tilePixel 0 ≤ p ∧ p < a.tilePixel 0 + 16 * tileCount a.size := by
  have hzoom : a.zoom.toNat = 64 := by rw [h.zoom]; rfl
  have hleft := h.left
  have hright := h.right
  have hhi := hi.isLt
  have hcenter := a.center.isLt
  rw [Machine.samples_iff, Axis.InFootprint, hzoom, centerFx_eq_tiles, Axis.tilePixel]
  unfold offsetOf
  omega

/-- Pixel i of tile n samples 64 i in that tile. -/
theorem Axis.UnityIn.pixelCursor_eq (h : a.UnityIn lo hi) {n i : Nat} (hn : n < tileCount a.size) (hlt : i < 16) :
    offsetOf a.center (a.tilePixel n + i) = (a.tilePixel n + i : Nat) - a.center.toNat ∧
    a.pixelCursor (a.tilePixel n + i) = ⟨1024 * n + 64 * i, 64, 0⟩ := by
  have hleft := h.left
  have hright := h.right
  have hhi := hi.isLt
  have hoffset : offsetOf a.center (a.tilePixel n + i) = (a.tilePixel n + i : Nat) - a.center.toNat := by
    unfold offsetOf Axis.tilePixel
    omega
  refine ⟨hoffset, ?_⟩
  rw [Axis.pixelCursor, h.cursor_eq, hoffset, Sample.mk.injEq]
  refine ⟨?_, rfl, rfl⟩
  unfold Axis.tilePixel
  omega

theorem Axis.UnityIn.runClass_eq (h : a.UnityIn lo hi) {n i : Nat} (hn : n < tileCount a.size) (hlt : i < 16) :
    a.runClass (a.tilePixel n + i) = (-(a.center.toNat : Int), n, 0) := by
  obtain ⟨hoffset, hcursor⟩ := h.pixelCursor_eq hn hlt
  have htile : tileOf (1024 * n + 64 * i) = n := by unfold tileOf; omega
  rw [Axis.runClass, hcursor, hoffset, htile, sub_sub_cancel_left]

/-- The sixteen pixels of a tile are a run. -/
theorem Axis.UnityIn.isRun (h : a.UnityIn lo hi) {n : Nat} (hn : n < tileCount a.size) :
    a.IsRun (a.tilePixel n) 15 := by
  intro q hmin hmax
  obtain ⟨i, rfl⟩ := Nat.exists_eq_add_of_le hmin
  have hright := h.right
  have hleft := h.left
  refine ⟨(h.samples_iff ?_).2 ?_, ?_⟩
  · unfold Axis.tilePixel at *; omega
  · unfold Axis.tilePixel at *; omega
  · rw [h.runClass_eq hn (by omega)]
    exact (h.runClass_eq (i := 0) hn (by omega)).symm

/-- The next tile is another run. -/
theorem Axis.UnityIn.sameRun_next_tile (h : a.UnityIn lo hi) {n : Nat} (hn : n + 1 < tileCount a.size) :
    a.sameRun (a.tilePixel n + 15) (a.tilePixel (n + 1)) = false := by
  refine decide_eq_false fun hsame => ?_
  have hclass := hsame.2
  rw [h.runClass_eq (i := 15) (by omega) (by omega), ← add_zero (a.tilePixel (n + 1)),
    h.runClass_eq (i := 0) hn (by omega)] at hclass
  simp at hclass

/-- The tiles make up the footprint. -/
theorem flatten_tiles (a : Axis) (m : Nat) :
    ((List.range m).map fun n => List.range' (a.tilePixel n) 16).flatten = List.range' (a.tilePixel 0) (16 * m) := by
  induction m with
  | zero => rfl
  | succ m ih =>
    rw [List.range_succ, List.map_append, List.flatten_append, ih, List.map_singleton, List.flatten_singleton,
      Nat.mul_succ, ← List.range'_append_1]
    rfl

theorem Axis.UnityIn.filter_samples (h : a.UnityIn lo hi) : (scanRange lo hi).filter a.samples =
    ((List.range (tileCount a.size)).map fun n => List.range' (a.tilePixel n) 16).flatten := by
  rw [flatten_tiles]
  refine (pairwise_lt_filter_scanRange lo hi _).eq_of_mem_iff (List.pairwise_lt_range' _) fun p => ?_
  have hleft := h.left
  have hright := h.right
  rw [List.mem_filter, mem_scanRange, List.mem_range'_1]
  refine ⟨fun ⟨hp, hs⟩ => (h.samples_iff hp.2).1 hs, fun hp => ?_⟩
  have hin : lo.toNat ≤ p ∧ p ≤ hi.toNat := by unfold Axis.tilePixel at hp; omega
  exact ⟨hin, (h.samples_iff hin.2).2 hp⟩

/-- The runs are the tiles (R127). -/
theorem Axis.UnityIn.samplingRuns_eq (h : a.UnityIn lo hi) : samplingRuns a (scanRange lo hi) =
    (List.range (tileCount a.size)).map fun n => List.range' (a.tilePixel n) 16 := by
  refine List.splitBy_eq_iff.2 ⟨h.filter_samples, by simp, fun run hrun => ?_, ?_⟩
  · obtain ⟨n, hn, rfl⟩ := List.mem_map.1 hrun
    exact isChain_of_isRun (h.isRun (List.mem_range.1 hn))
  · rw [List.isChain_map, List.range_eq_range']
    refine (List.isChain_range' _ _ _).imp_of_mem_imp fun n m _ hm hnm => ⟨by simp, by simp, ?_⟩
    subst hnm
    rw [List.mem_range'_1] at hm
    simpa [List.getLast_range'] using h.sameRun_next_tile (by omega)

/-- The segment of a tile (R127). -/
theorem Axis.UnityIn.segment_eq (h : a.UnityIn lo hi) {n : Nat} (hn : n < tileCount a.size) :
    segmentOfRun a (List.range' (a.tilePixel n) 16) =
      ⟨a.tilePixel n, a.tilePixel n + 15, 0, 64, a.delta.toList.getD n 0⟩ := by
  have hcursor : a.pixelCursor (a.tilePixel n) = _ := (h.pixelCursor_eq (i := 0) hn (by omega)).2
  have htile : tileOf (1024 * n + 64 * (0 : Nat)) = n := by unfold tileOf; omega
  rw [segmentOfRun_range', openRun_seg, hcursor, htile]
  simp

end

end Sys2Proof.Machine
end

section
/-! CERTIFICATES. The statement about a forward sprite at unity zoom (spec/41_tile_layout.md, R127). -/

namespace Sys2Proof.Machine

/-- Settles O45: the runs of the sampling pixels are the sprite's tiles. -/
theorem unityForwardTilesExactly : Obligations.UnityForwardTilesExactly := by
  unfold Obligations.UnityForwardTilesExactly
  intro q hzoom hregime w c hleft hright
  have hhalf : w / 2 = 8 * tileCount q.size := by rw [show w = _ from width_eq_tiles q.size]; omega
  have htiles : w / 16 = tileCount q.size := by rw [show w = _ from width_eq_tiles q.size]; omega
  have hunity : q.axis.UnityIn q.scanMin q.scanMax := ⟨hzoom, hregime, hhalf ▸ hleft, hhalf ▸ hright⟩
  have hz : q.zoom ≠ 0 := by rw [hzoom]; decide
  rw [segments_eq_runs hz, hunity.samplingRuns_eq, List.map_map, htiles, hhalf]
  exact List.map_congr_left fun n hn => hunity.segment_eq (List.mem_range.1 hn)

end Sys2Proof.Machine
end

section
/-! SUPPORT. What each tile-draw variant makes of an element, from its index (R148-R154), and how a written pixel ends. -/

namespace Sys2Proof.Machine

/-! ### What each variant makes of an element (R151-R154) -/

section
variable (r : Regs) (p : PixelArgs) (old : Word)

/-- An index that does not meet TMASK is transparent (R148). -/
theorem pixelForcePlain_eq : pixelForcePlain r p old =
    if p.idx &&& blkTmask r p.blk = 0 then none else some ⟨p.pal + p.idx.setWidth 16, p.wattr⟩ := by
  simp [pixelForcePlain, opaqueIndex, opaqueColor]

/-- The keep variants differ from the force variants in what becomes of SPR_A alone (R150, R153, R154). -/
theorem pixelKeepPlain_eq : pixelKeepPlain r p old =
    if p.idx &&& blkTmask r p.blk = 0 then none else some ⟨p.pal + p.idx.setWidth 16, keepAttr r old p.wattr⟩ :=
  pixelForcePlain_eq r { p with wattr := keepAttr r old p.wattr } old

/-- The shadow-detecting variants differ from the plain ones at the top code alone (R149). -/
theorem pixelForceShadow_eq : pixelForceShadow r p old =
    if p.idx = p.pm then some ⟨p.pal, blkSattr r p.blk⟩ else pixelForcePlain r p old := by
  simp [pixelForceShadow, shadowIndex, pixelForcePlain]

theorem pixelKeepShadow_eq : pixelKeepShadow r p old =
    if p.idx = p.pm then some ⟨p.pal, keepAttr r old (blkSattr r p.blk)⟩ else pixelKeepPlain r p old := by
  simp [pixelKeepShadow, shadowIndex, pixelKeepPlain]

end

/-! ### The end of a variant's operation -/

/-- A pixel to be written at an existing element is painted there, and nowhere else. -/
theorem paintsElement_finishPixel {s : State} {p : PixelArgs} {v : Option Pixel} {color attr : Word}
    (hv : v = some ⟨color, attr⟩) (hp : p.wellFormed = true) (hx : p.x < s.allocW) (hy : p.y < s.allocH) :
    PaintsElement s p (finishPixel s p.x p.y v) color attr := by
  have hin : inPlanes s p.x p.y = true := by simp [inPlanes, hx, hy]
  have hx' : p.x < 1024 := by
    simp only [PixelArgs.wellFormed, Bool.and_eq_true, decide_eq_true_eq] at hp
    obtain ⟨⟨⟨hx', -⟩, -⟩, -⟩ := hp
    exact hx'
  subst hv
  refine ⟨paintElement s p.x p.y ⟨color, attr⟩, if_pos hin, rfl, by simp, by simp, fun x y hxlt hne => ?_⟩
  have hkey : planeKey x y ≠ planeKey p.x p.y := mt (planeKey_inj hxlt hx').1 hne
  exact ⟨planeRead_planeWrite_other _ _ hkey, planeRead_planeWrite_other _ _ hkey⟩

/-- Where no pixel is to be written, the state stays. -/
theorem finishPixel_of_none {s : State} {x y : Nat} {v : Option Pixel} (hv : v = none) :
    finishPixel s x y v = .next s := by
  subst hv; rfl

end Sys2Proof.Machine
end

section
/-! CERTIFICATES. The statements about the four tile-draw variants (spec/42_sprite_compositor.md, R151-R154). -/

namespace Sys2Proof.Machine

/-- Settles O46: an opaque index is painted, any other leaves the state. -/
theorem tdForcePlainResult : Obligations.TdForcePlainResult := by
  unfold Obligations.TdForcePlainResult
  refine fun s p hp => ⟨decodeTileDraw_forcePlain p, fun hidx => paintsElement_finishPixel ?_ hp, fun hidx =>
    finishPixel_of_none ?_⟩
  · rw [pixelForcePlain_eq, if_neg hidx]
  · rw [pixelForcePlain_eq, if_pos hidx]

/-- Settles O47: the top code is painted as a shadow, any other index as by TD_FORCE_PLAIN. -/
theorem tdForceShadowResult : Obligations.TdForceShadowResult := by
  unfold Obligations.TdForceShadowResult
  refine fun s p hp => ⟨decodeTileDraw_forceShadow p, fun htop => paintsElement_finishPixel ?_ hp,
    fun htop hidx => paintsElement_finishPixel ?_ hp, fun htop hidx => finishPixel_of_none ?_⟩
  · rw [pixelForceShadow_eq, if_pos htop]
  · rw [pixelForceShadow_eq, if_neg htop, pixelForcePlain_eq, if_neg hidx]
  · rw [pixelForceShadow_eq, if_neg htop, pixelForcePlain_eq, if_pos hidx]

/-- Settles O48: as TD_FORCE_PLAIN, with WATTR merged into the element of SPR_A under KEEP. -/
theorem tdKeepPlainResult : Obligations.TdKeepPlainResult := by
  unfold Obligations.TdKeepPlainResult
  refine fun s p hp => ⟨decodeTileDraw_keepPlain p, fun hidx => paintsElement_finishPixel ?_ hp, fun hidx =>
    finishPixel_of_none ?_⟩
  · rw [pixelKeepPlain_eq, if_neg hidx]; rfl
  · rw [pixelKeepPlain_eq, if_pos hidx]

/-- Settles O49: the top code is painted as a shadow, any other index as by TD_KEEP_PLAIN; both merge into SPR_A. -/
theorem tdKeepShadowResult : Obligations.TdKeepShadowResult := by
  unfold Obligations.TdKeepShadowResult
  refine fun s p hp => ⟨decodeTileDraw_keepShadow p, fun htop => paintsElement_finishPixel ?_ hp,
    fun htop hidx => paintsElement_finishPixel ?_ hp, fun htop hidx => finishPixel_of_none ?_⟩
  · rw [pixelKeepShadow_eq, if_pos htop]; rfl
  · rw [pixelKeepShadow_eq, if_neg htop, pixelKeepPlain_eq, if_neg hidx]; rfl
  · rw [pixelKeepShadow_eq, if_neg htop, pixelKeepPlain_eq, if_pos hidx]

end Sys2Proof.Machine
end

section
/-! SUPPORT. Bucketing (R141, R142): after the records below n each bucket holds the highest-indexed of them, and DIAG and
the count have one event for each of them that found its bucket taken. -/

namespace Sys2Proof.Machine

/-! ### Record indices -/

/-- The record indices below n, in memory order (R38). -/
def recordsBelow (n : Nat) : List Byte := (List.range n).map (BitVec.ofNat 8)

theorem recordsBelow_succ (n : Nat) : recordsBelow (n + 1) = recordsBelow n ++ [BitVec.ofNat 8 n] := by
  simp [recordsBelow, List.range_succ]

theorem mem_recordsBelow {n : Nat} {i : Byte} (hn : n ≤ 256) : i ∈ recordsBelow n ↔ i.toNat < n := by
  simp only [recordsBelow, List.mem_map, List.mem_range]
  constructor
  · rintro ⟨k, hk, rfl⟩
    rwa [BitVec.toNat_ofNat, Nat.mod_eq_of_lt (by omega)]
  · exact fun h => ⟨i.toNat, h, by simp⟩

theorem getElem_recordIndices (k : Nat) (hk : k < recordIndices.length) : recordIndices[k] = BitVec.ofNat 8 k := by
  simp [recordIndices]

theorem mem_recordIndices (i : Byte) : i ∈ recordIndices := (mem_recordsBelow le_rfl).2 i.isLt

theorem pairwise_lt_recordIndices : recordIndices.Pairwise (· < ·) := by
  refine List.pairwise_map.2 (List.pairwise_lt_range.imp_of_mem fun hi hj hij => ?_)
  rw [List.mem_range] at hi hj
  rwa [BitVec.lt_def, BitVec.toNat_ofNat, BitVec.toNat_ofNat, Nat.mod_eq_of_lt hi, Nat.mod_eq_of_lt hj]

/-! ### The bucket of a record -/

/-- The bucket that record i takes, none where it is not active (R141). -/
def recordBucket (s : State) (i : Byte) : Option Byte :=
  if (decodeRecord s i).active then some (bucketOf s.regs (decodeRecord s i)) else none

theorem inBucket_iff {s : State} {b i : Byte} : inBucket s b i = true ↔ recordBucket s i = some b := by
  simp [inBucket, recordBucket]

/-- Membership depends on the buckets of the records alone. -/
theorem inBucket_congr {s t : State} (h : ∀ i, recordBucket t i = recordBucket s i) : inBucket t = inBucket s := by
  funext b i
  rw [Bool.eq_iff_iff, inBucket_iff, inBucket_iff, h]

/-! ### The owner of a bucket among the first records -/

/-- The highest-indexed record below n of bucket b. -/
def ownerBelow (s : State) (n : Nat) (b : Byte) : Option Byte := ((recordsBelow n).filter (inBucket s b)).getLast?

theorem ownerBelow_all (s : State) : ownerBelow s 256 = bucketOwner s := rfl

section
variable {s : State} {n : Nat} {b i : Byte}

theorem ownerBelow_zero : ownerBelow s 0 b = none := rfl

theorem ownerBelow_succ_of_inBucket (h : inBucket s b (BitVec.ofNat 8 n) = true) :
    ownerBelow s (n + 1) b = some (BitVec.ofNat 8 n) := by
  simp [ownerBelow, recordsBelow_succ, List.filter_append, h]

theorem ownerBelow_succ_of_not_inBucket (h : ¬inBucket s b (BitVec.ofNat 8 n) = true) :
    ownerBelow s (n + 1) b = ownerBelow s n b := by
  simp [ownerBelow, recordsBelow_succ, List.filter_append, h]

/-- A record below n + 1 is record n or below n. -/
theorem eq_ofNat_or_lt (h : i.toNat < n + 1) : i = BitVec.ofNat 8 n ∨ i.toNat < n := by
  rcases Nat.lt_succ_iff_lt_or_eq.1 h with hlt | rfl
  · exact .inr hlt
  · exact .inl (by simp)

theorem ownerBelow_eq_none_iff (hn : n ≤ 256) :
    ownerBelow s n b = none ↔ ∀ i : Byte, i.toNat < n → ¬inBucket s b i = true := by
  simp only [ownerBelow, List.getLast?_eq_none_iff, List.filter_eq_nil_iff, mem_recordsBelow hn]

/-- The owner is the member with no higher one. -/
theorem ownerBelow_eq_some_iff (hn : n ≤ 256) : ownerBelow s n b = some i ↔
    i.toNat < n ∧ inBucket s b i = true ∧ ∀ j, i < j → j.toNat < n → ¬inBucket s b j = true := by
  induction n with
  | zero => simp [ownerBelow_zero]
  | succ n ih =>
    have hlast : (BitVec.ofNat 8 n).toNat = n := by simp; omega
    by_cases h : inBucket s b (BitVec.ofNat 8 n) = true
    · rw [ownerBelow_succ_of_inBucket h, Option.some.injEq]
      constructor
      · rintro rfl
        exact ⟨by omega, h, fun j hj hlt => by rw [BitVec.lt_def] at hj; omega⟩
      · rintro ⟨hlt, -, hmax⟩
        by_contra hne
        refine hmax _ ?_ (by omega) h
        rw [BitVec.lt_def, hlast]
        exact (eq_ofNat_or_lt hlt).resolve_left (Ne.symm hne)
    · rw [ownerBelow_succ_of_not_inBucket h, ih (by omega)]
      constructor
      · rintro ⟨hlt, hi, hmax⟩
        refine ⟨by omega, hi, fun j hj hjlt => ?_⟩
        rcases eq_ofNat_or_lt hjlt with rfl | hjlt
        · exact h
        · exact hmax j hj hjlt
      · rintro ⟨hlt, hi, hmax⟩
        have hne : i ≠ BitVec.ofNat 8 n := fun he => h (he ▸ hi)
        exact ⟨(eq_ofNat_or_lt hlt).resolve_left hne, hi, fun j hj hjlt => hmax j hj (by omega)⟩

end

/-- A bucket's owner is its member with no higher one (R141). -/
theorem bucketOwner_eq_some_iff {s : State} {b i : Byte} : bucketOwner s b = some i ↔
    inBucket s b i = true ∧ ∀ j, i < j → ¬inBucket s b j = true := by
  have hlt : ∀ j : Byte, j.toNat < 256 := fun j => j.isLt
  rw [← ownerBelow_all, ownerBelow_eq_some_iff le_rfl]
  simp only [hlt, true_and, forall_const]

theorem bucketOwner_eq_none_iff {s : State} {b : Byte} : bucketOwner s b = none ↔ ∀ i, ¬inBucket s b i = true := by
  rw [← ownerBelow_all, ownerBelow_eq_none_iff le_rfl]
  exact forall_congr' fun i => forall_prop_of_true i.isLt

/-! ### The events (R142) -/

/-- The event of record i: it takes a bucket that a record below it holds. -/
def collisionOf (s : State) (i : Byte) : Option Collision :=
  (recordBucket s i).bind fun b => (ownerBelow s i.toNat b).map fun old => ⟨b, old, i⟩

/-- The events of a bucketing, in memory order. -/
def collisions (s : State) : List Collision := recordIndices.filterMap (collisionOf s)

theorem collisionOf_eq_some_iff {s : State} {i : Byte} {e : Collision} : collisionOf s i = some e ↔
    e.newIndex = i ∧ inBucket s e.bucket i = true ∧ ownerBelow s i.toNat e.bucket = some e.oldIndex := by
  simp only [collisionOf, Option.bind_eq_some_iff, Option.map_eq_some_iff, inBucket_iff]
  constructor
  · rintro ⟨b, hb, old, hold, rfl⟩
    exact ⟨rfl, hb, hold⟩
  · rintro ⟨rfl, hb, hold⟩
    exact ⟨e.bucket, hb, e.oldIndex, hold, rfl⟩

/-- An event names the next lower member of its bucket. -/
theorem mem_collisions_iff {s : State} {e : Collision} : e ∈ collisions s ↔
    e.oldIndex < e.newIndex ∧ inBucket s e.bucket e.oldIndex = true ∧ inBucket s e.bucket e.newIndex = true ∧
      ∀ j, e.oldIndex < j → j < e.newIndex → ¬inBucket s e.bucket j = true := by
  simp only [collisions, List.mem_filterMap, mem_recordIndices, true_and, collisionOf_eq_some_iff]
  rw [exists_eq_left', ownerBelow_eq_some_iff e.newIndex.isLt.le]
  exact and_left_comm.trans (and_congr_right' and_left_comm)

theorem pairwise_collisions (s : State) : (collisions s).Pairwise fun e f => e.newIndex < f.newIndex := by
  refine List.pairwise_filterMap.2 (pairwise_lt_recordIndices.imp fun {i j} hij e he f hf => ?_)
  rwa [(collisionOf_eq_some_iff.1 he).1, (collisionOf_eq_some_iff.1 hf).1]

/-- The first record finds every bucket empty. -/
theorem length_collisions_le (s : State) : (collisions s).length ≤ 255 := by
  have hfirst : collisionOf s 0 = none := by
    simp [collisionOf, ownerBelow_zero]
  have hlt : (collisions s).length < recordIndices.length :=
    List.length_filterMap_lt_length_iff_exists.2 ⟨0, mem_recordIndices 0, hfirst⟩
  rw [length_recordIndices] at hlt
  omega

/-! ### The loop -/

/-- `s` with events appended to DIAG and counted (R142). -/
def State.withEvents (s : State) (es : List Collision) : State :=
  { s with
    regs := { s.regs with sprCollisions := s.regs.sprCollisions + BitVec.ofNat 16 es.length }
    diag := s.diag ++ es }

theorem withEvents_nil (s : State) : s.withEvents [] = s := by
  simp [State.withEvents]

theorem collide_withEvents (s : State) (es : List Collision) (b old i : Byte) :
    collide (s.withEvents es) b old i = s.withEvents (es ++ [⟨b, old, i⟩]) := by
  simp [State.withEvents, collide, countUp, BitVec.ofNat_add, BitVec.add_assoc]

theorem recordBucket_withEvents (s : State) (es : List Collision) (i : Byte) :
    recordBucket (s.withEvents es) i = recordBucket s i := rfl

theorem bucketRecord_of_none {t : Buckets} {s : State} {i : Byte} (h : recordBucket s i = none) :
    bucketRecord (t, s) i = (t, s) := by
  have h : ¬(decodeRecord s i).active = true := by simpa [recordBucket] using h
  exact if_neg h

/-- A record takes its bucket, colliding with the record that held it. -/
theorem bucketRecord_of_some {t : Buckets} {s : State} {b i : Byte} (h : recordBucket s i = some b) :
    bucketRecord (t, s) i = (t.set b.toNat (some i), (bucketGet t b).elim s fun old => collide s b old i) := by
  obtain ⟨hactive, rfl⟩ : (decodeRecord s i).active = true ∧ bucketOf s.regs (decodeRecord s i) = b := by
    simpa [recordBucket] using h
  simp only [bucketRecord, hactive, if_true]
  cases bucketGet t (bucketOf s.regs (decodeRecord s i)) <;> rfl

theorem bucketGet_map (f : Byte → Option Byte) (b : Byte) : bucketGet (recordIndices.map f) b = f b := by
  have hb : b.toNat < recordIndices.length := by rw [length_recordIndices]; exact b.isLt
  rw [bucketGet, List.getD_eq_getElem _ _ (by simpa using hb), List.getElem_map, getElem_recordIndices,
    BitVec.ofNat_toNat, BitVec.setWidth_eq]

theorem set_map_recordIndices (f : Byte → Option Byte) (b : Byte) (v : Option Byte) :
    (recordIndices.map f).set b.toNat v = recordIndices.map (Function.update f b v) := by
  refine List.ext_getElem (by simp) fun k hk _ => ?_
  have hk : k < 256 := by simpa using hk
  have hkb : BitVec.ofNat 8 k = b ↔ b.toNat = k := by
    rw [← BitVec.toNat_inj, BitVec.toNat_ofNat, Nat.mod_eq_of_lt hk, eq_comm]
  simp only [List.getElem_set, List.getElem_map, getElem_recordIndices, Function.update_apply, hkb]

/-- Where record n takes bucket b, the owner of b is n and every other owner stays. -/
theorem ownerBelow_succ_of_some {s : State} {n : Nat} {b : Byte} (h : recordBucket s (BitVec.ofNat 8 n) = some b) :
    ownerBelow s (n + 1) = Function.update (ownerBelow s n) b (some (BitVec.ofNat 8 n)) := by
  funext c
  rw [Function.update_apply]
  split
  next hc => exact ownerBelow_succ_of_inBucket (inBucket_iff.2 (hc ▸ h))
  next hc =>
    refine ownerBelow_succ_of_not_inBucket fun hin => hc ?_
    exact Option.some.inj ((inBucket_iff.1 hin).symm.trans h)

theorem ownerBelow_succ_of_none {s : State} {n : Nat} (h : recordBucket s (BitVec.ofNat 8 n) = none) :
    ownerBelow s (n + 1) = ownerBelow s n := by
  funext c
  refine ownerBelow_succ_of_not_inBucket fun hin => ?_
  rw [inBucket_iff, h] at hin
  cases hin

/-- The loop of R141 after the records below n. -/
theorem foldl_bucketRecord_eq (s : State) {n : Nat} (hn : n ≤ 256) :
    (recordsBelow n).foldl bucketRecord (List.replicate 256 none, s) =
      (recordIndices.map (ownerBelow s n), s.withEvents ((recordsBelow n).filterMap (collisionOf s))) := by
  induction n with
  | zero =>
    have hnone : ownerBelow s 0 = fun _ => none := rfl
    rw [hnone, List.map_const', length_recordIndices]
    exact Prod.ext rfl (withEvents_nil s).symm
  | succ n ih =>
    have hlast : (BitVec.ofNat 8 n).toNat = n := by rw [BitVec.toNat_ofNat, Nat.mod_eq_of_lt (by omega)]
    rw [recordsBelow_succ, List.foldl_append, ih (by omega), List.filterMap_append, List.foldl_cons, List.foldl_nil]
    cases h : recordBucket s (BitVec.ofNat 8 n) with
    | none =>
      have hevent : collisionOf s (BitVec.ofNat 8 n) = none := by rw [collisionOf, h, Option.bind_none]
      rw [bucketRecord_of_none ((recordBucket_withEvents s _ _).trans h), ownerBelow_succ_of_none h,
        List.filterMap_cons_none hevent, List.filterMap_nil, List.append_nil]
    | some b =>
      rw [bucketRecord_of_some ((recordBucket_withEvents s _ _).trans h), set_map_recordIndices,
        ← ownerBelow_succ_of_some h, bucketGet_map]
      cases hold : ownerBelow s n b with
      | none =>
        have hevent : collisionOf s (BitVec.ofNat 8 n) = none := by simp [collisionOf, h, hlast, hold]
        rw [List.filterMap_cons_none hevent, List.filterMap_nil, List.append_nil]
        rfl
      | some old =>
        have hevent : collisionOf s (BitVec.ofNat 8 n) = some ⟨b, old, BitVec.ofNat 8 n⟩ := by
          simp [collisionOf, h, hlast, hold]
        rw [List.filterMap_cons_some hevent, List.filterMap_nil, Option.elim_some, collide_withEvents]

/-- After bucketing each bucket holds its owner, and every collision is reported and counted (R141, R142). -/
theorem bucketing_eq (s : State) :
    bucketing s = (recordIndices.map (bucketOwner s), s.withEvents (collisions s)) :=
  foldl_bucketRecord_eq s le_rfl

end Sys2Proof.Machine
end

section
/-! SUPPORT. What a valid COMPOSE leaves (R140, R225): the buckets' owners drawn in ascending bucket order, and the events of
the bucketing in DIAG and in the count. -/

namespace Sys2Proof.Machine

/-- The sprite planes of a pass from `s`: the owners of the buckets, drawn in ascending bucket order (R140). -/
def drawnPlanes (s : State) : SpritePlanes :=
  recordIndices.foldl (fun pl b => drawBucket s pl (bucketOwner s b)) ⟨[], []⟩

/-- A pass reads neither the allocation nor the planes it finds. -/
theorem drawnPlanes_passStart (s : State) : drawnPlanes (passStart s) = drawnPlanes s := by
  rw [passStart_frame]; rfl

theorem collisions_passStart (s : State) : collisions (passStart s) = collisions s := by
  rw [passStart_frame]; rfl

/-- `s` with the count cleared, as bucketing begins (R140). -/
def State.countCleared (s : State) : State := { s with regs := { s.regs with sprCollisions := 0 } }

theorem bucketOwner_countCleared (s : State) : bucketOwner s.countCleared = bucketOwner s := rfl

theorem collisions_countCleared (s : State) : collisions s.countCleared = collisions s := rfl

/-- Drawing reads neither the count nor DIAG. -/
theorem drawBucket_withDiag (s : State) (v : Word) (d : List Collision) :
    drawBucket { s with regs := { s.regs with sprCollisions := v }, diag := d } = drawBucket s := rfl

theorem drawBucket_afterBucketing (s : State) (es : List Collision) :
    drawBucket (s.countCleared.withEvents es) = drawBucket s :=
  drawBucket_withDiag s _ _

theorem composePass_eq (s : State) :
    composePass s = { s.countCleared.withEvents (collisions s) with
      sprC := (drawnPlanes s).color, sprA := (drawnPlanes s).attr } := by
  unfold composePass
  rw [show { s with regs := { s.regs with sprCollisions := 0 } } = s.countCleared from rfl, bucketing_eq,
    bucketOwner_countCleared, collisions_countCleared]
  simp only [drawBucket_afterBucketing, List.foldl_map, drawnPlanes]

section
variable (s : State)

@[simp] theorem composePass_sprC : (composePass s).sprC = (drawnPlanes s).color := by rw [composePass_eq]

@[simp] theorem composePass_sprA : (composePass s).sprA = (drawnPlanes s).attr := by rw [composePass_eq]

@[simp] theorem composePass_diag : (composePass s).diag = s.diag ++ collisions s := by rw [composePass_eq]; rfl

@[simp] theorem composePass_sprCollisions :
    (composePass s).regs.sprCollisions = BitVec.ofNat 16 (collisions s).length := by
  rw [composePass_eq]; exact BitVec.zero_add _

end

/-- A valid COMPOSE runs its pass on the machine after the start of a pass (R225). -/
theorem exec_compose_of_valid {s : State} (hr : rectValid s = true) (ht : s.cfg.tileRomPresent = true) :
    exec .compose s = .next (respond (composePass (passStart s)) 0) :=
  execCompose_of_noErrors (by simp [causesAny, composeErrors, hr, ht])

/-- What a valid COMPOSE leaves in the sprite planes, DIAG and SPR_COLLISIONS, and the planes' size. -/
theorem exec_compose_result {s : State} (hr : rectValid s = true) (ht : s.cfg.tileRomPresent = true) :
    ∃ t, exec .compose s = .next t ∧ t.sprC = (drawnPlanes s).color ∧ t.sprA = (drawnPlanes s).attr ∧
      t.allocW = rectW s.regs ∧ t.allocH = rectH s.regs ∧
      t.diag = s.diag ++ collisions s ∧ t.regs.sprCollisions = BitVec.ofNat 16 (collisions s).length := by
  refine ⟨_, exec_compose_of_valid hr ht, ?_, ?_, ?_, ?_, ?_, ?_⟩
  · rw [respond_sprC, composePass_sprC, drawnPlanes_passStart]
  · rw [respond_sprA, composePass_sprA, drawnPlanes_passStart]
  · rw [respond_allocW, composePass_allocW, passStart_allocW]
  · rw [respond_allocH, composePass_allocH, passStart_allocH]
  · rw [respond_diag, composePass_diag, passStart_diag, collisions_passStart]
  · rw [respond_regs, composePass_sprCollisions, collisions_passStart]

end Sys2Proof.Machine
end

section
/-! CERTIFICATES. The statements about bucketing (spec/42_sprite_compositor.md, R141, R142). -/

namespace Sys2Proof.Machine

/-- Settles O30: each bucket holds its owner after bucketing. -/
theorem lastRecordOwnsBucket : Obligations.LastRecordOwnsBucket := by
  unfold Obligations.LastRecordOwnsBucket
  refine fun s b => ⟨fun i => ?_, ?_⟩
  · rw [inBucket, Bool.and_eq_true, decide_eq_true_eq]
    rfl
  · rw [bucketing_eq, bucketGet_map]
    cases h : bucketOwner s b with
    | none => exact bucketOwner_eq_none_iff.1 h
    | some i => exact bucketOwner_eq_some_iff.1 h

/-- Settles O31: the events are those of the records that find their bucket taken; the first record finds none. -/
theorem collisionsCountedAndReported : Obligations.CollisionsCountedAndReported := by
  unfold Obligations.CollisionsCountedAndReported
  intro s hr ht
  obtain ⟨t, hexec, -, -, -, -, hdiag, hcount⟩ := exec_compose_result hr ht
  have hlen := length_collisions_le s
  refine ⟨t, collisions s, hexec, hdiag, ?_, hlen, pairwise_collisions s, fun e => mem_collisions_iff⟩
  rw [hcount, BitVec.toNat_ofNat, Nat.mod_eq_of_lt (by omega)]

end Sys2Proof.Machine
end

section
/-! SUPPORT. Write protection (R144): when it skips a record, and that bucketing and drawing see it nowhere else. -/

namespace Sys2Proof.Machine

theorem writeProtected_eq_false_iff (g : Regs) (b : Fin 4) :
    writeProtected g b = false ↔ blkWp g b = false ∨ sprWrap g = false :=
  Bool.and_eq_false_iff

/-- A record of a protected block draws nothing. -/
theorem drawSprite_of_protected {s : State} {r : SpriteRecord} (h : writeProtected s.regs (recordBlk r) = true)
    (pl : SpritePlanes) : drawSprite s r pl = pl := if_pos h

/-- A record of any other block draws every pair of its segments. -/
theorem drawSprite_of_unprotected {s : State} {r : SpriteRecord} (h : writeProtected s.regs (recordBlk r) = false)
    (pl : SpritePlanes) : drawSprite s r pl = (recordSegmentsY s r).foldl (fun pl gy =>
      (recordSegmentsX s r).foldl (fun pl gx => tileDraw s (paintOf s r) gx gy pl) pl) pl :=
  if_neg (Bool.eq_false_iff.1 h)

/-! ### Bucketing reads the records' buckets alone -/

theorem bucketOwner_congr {s t : State} (h : ∀ i, recordBucket t i = recordBucket s i) :
    bucketOwner t = bucketOwner s := by
  funext b
  rw [bucketOwner, bucketOwner, inBucket_congr h]

theorem collisions_congr {s t : State} (h : ∀ i, recordBucket t i = recordBucket s i) : collisions t = collisions s := by
  have hcollision : collisionOf t = collisionOf s := by
    funext i
    simp only [collisionOf, ownerBelow, inBucket_congr h, h]
  rw [collisions, collisions, hcollision]

/-- Of SPR_CTRL and SPR_BLK_CTRL, bucketing reads PINV alone (R141). -/
theorem recordBucket_withControls {s : State} {c : Word} (v : Vector Word 4)
    (hc : c.getLsbD 0 = s.regs.sprCtrl.getLsbD 0) (i : Byte) :
    recordBucket { s with regs := { s.regs with sprCtrl := c, sprBlkCtrl := v } } i = recordBucket s i := by
  have hpinv : sprPinv { s.regs with sprCtrl := c, sprBlkCtrl := v } = sprPinv s.regs := hc
  have hrecord : decodeRecord { s with regs := { s.regs with sprCtrl := c, sprBlkCtrl := v } } i = decodeRecord s i := rfl
  simp only [recordBucket, hrecord, bucketOf, hpinv]

/-! ### A bucket emptied -/

/-- `t` is `s` with the records of bucket `b` made inactive in SNAP, and nothing else changed. -/
structure BucketEmptied (s t : State) (b : Byte) : Prop where
  frame   : t = { s with snap := t.snap }
  records : ∀ j, decodeRecord t j =
    { decodeRecord s j with active := (decodeRecord s j).active && !inBucket s b j }

namespace BucketEmptied

variable {s t : State} {b : Byte} (h : BucketEmptied s t b)
include h

theorem regs : t.regs = s.regs := by rw [h.frame]

/-- The bucket itself has no member left, every other bucket keeps its members. -/
theorem inBucket_eq (c j : Byte) : inBucket t c j = (inBucket s c j && decide (c ≠ b)) := by
  have hbucket : bucketOf t.regs (decodeRecord t j) = bucketOf s.regs (decodeRecord s j) := by
    rw [h.regs, h.records]; rfl
  have hactive : (decodeRecord t j).active = ((decodeRecord s j).active && !inBucket s b j) := by rw [h.records]
  rw [inBucket, hbucket, hactive]
  by_cases hc : bucketOf s.regs (decodeRecord s j) = c
  · subst hc
    cases hs : (decodeRecord s j).active <;> simp [inBucket, hs]
  · simp [inBucket, hc]

theorem bucketOwner_same : bucketOwner t b = none := by
  simp [bucketOwner_eq_none_iff, h.inBucket_eq]

theorem bucketOwner_other {c : Byte} (hc : c ≠ b) : bucketOwner t c = bucketOwner s c := by
  have hin : inBucket t c = inBucket s c := by
    funext j
    simp [h.inBucket_eq, hc]
  rw [bucketOwner, bucketOwner, hin]

/-- Drawing a record does not read whether it is active. -/
theorem drawSprite_eq (j : Byte) : drawSprite t (decodeRecord t j) = drawSprite s (decodeRecord s j) := by
  rw [h.records, h.frame]
  rfl

/-- Where the bucket's owner is protected, the other buckets draw what they drew. -/
theorem drawnPlanes_eq {i : Byte} (hi : bucketOwner s b = some i)
    (hp : writeProtected s.regs (recordBlk (decodeRecord s i)) = true) : drawnPlanes t = drawnPlanes s := by
  refine List.foldl_ext _ _ _ fun pl c _ => ?_
  by_cases hc : c = b
  · subst hc
    rw [h.bucketOwner_same, hi]
    exact (drawSprite_of_protected hp pl).symm
  · rw [h.bucketOwner_other hc]
    cases bucketOwner s c with
    | none => rfl
    | some j => exact congrFun (h.drawSprite_eq j) pl

end BucketEmptied

end Sys2Proof.Machine
end

section
/-! CERTIFICATES. The statement about write protection (spec/42_sprite_compositor.md, R143, R144). -/

namespace Sys2Proof.Machine

/-- Settles O32: bucketing reads PINV alone of the two registers, and a protected owner draws what an empty bucket does,
nothing. -/
theorem writeProtectedSpriteSkipped : Obligations.WriteProtectedSpriteSkipped := by
  unfold Obligations.WriteProtectedSpriteSkipped
  refine ⟨fun s r pl hwp hwrap => ?_, fun g b => Bool.and_eq_true_iff, fun s r pl hor => ?_, fun s s' c v hc hs' => ?_,
    fun s s' b i hr ht hi hmax hwp hwrap hframe hrecords => ?_⟩
  · exact drawSprite_of_protected (Bool.and_eq_true_iff.2 ⟨hwp, hwrap⟩) pl
  · exact drawSprite_of_unprotected ((writeProtected_eq_false_iff _ _).2 hor) pl
  · subst hs'
    have hbuckets := recordBucket_withControls v hc
    rw [bucketing_eq, bucketing_eq, bucketOwner_congr hbuckets, collisions_congr hbuckets]
    exact ⟨rfl, rfl, rfl⟩
  · have hempty : BucketEmptied s s' b := ⟨hframe, hrecords⟩
    have howner : bucketOwner s b = some i :=
      bucketOwner_eq_some_iff.2 ⟨hi, fun j hj => Bool.eq_false_iff.1 (hmax j hj)⟩
    have hplanes := hempty.drawnPlanes_eq howner (Bool.and_eq_true_iff.2 ⟨hwp, hwrap⟩)
    have hr' : rectValid s' = true := by rw [hframe]; exact hr
    have ht' : s'.cfg.tileRomPresent = true := by rw [hframe]; exact ht
    obtain ⟨t, hexec, hcolor, hattr, -⟩ := exec_compose_result hr ht
    obtain ⟨t', hexec', hcolor', hattr', -⟩ := exec_compose_result hr' ht'
    rw [hplanes] at hcolor' hattr'
    exact ⟨t, t', hexec, hexec', hcolor.trans hcolor'.symm, hattr.trans hattr'.symm⟩

end Sys2Proof.Machine
end

section
/-! SUPPORT. A compositor pass seen from one element of the sprite planes (R143-R147): a loop whose body changes the element
for some of its items only is, for that element, a loop over those items; of an axis' segments at most one covers the
element's screen pixel, and it samples there what the axis does. -/

namespace Sys2Proof.Machine

/-! ### One element of the sprite planes -/

/-- Element (x, y) of the sprite planes. -/
def SpritePlanes.element (pl : SpritePlanes) (x y : Nat) : Pixel := ⟨planeRead pl.color x y, planeRead pl.attr x y⟩

theorem SpritePlanes.element_color (pl : SpritePlanes) (x y : Nat) :
    (pl.element x y).color = planeRead pl.color x y := rfl

theorem SpritePlanes.element_attr (pl : SpritePlanes) (x y : Nat) :
    (pl.element x y).attr = planeRead pl.attr x y := rfl

/-- What a pixel operation makes of its element. -/
def pixelResult (t : Tdv) (regs : Regs) (p : PixelArgs) (old : Pixel) : Pixel := (pixelOp t regs p old.attr).getD old

section
variable (t : Tdv) (regs : Regs) {p : PixelArgs} (pl : SpritePlanes) {x y : Nat}

theorem element_drawPixel_same (hx : p.x = x) (hy : p.y = y) :
    (drawPixel t regs p pl).element x y = pixelResult t regs p (pl.element x y) := by
  subst hx hy
  unfold drawPixel pixelResult SpritePlanes.element
  cases pixelOp t regs p (planeRead pl.attr p.x p.y) <;> simp

theorem element_drawPixel_other (hp : p.x < 1024) (hx : x < 1024) (hne : ¬(x = p.x ∧ y = p.y)) :
    (drawPixel t regs p pl).element x y = pl.element x y := by
  have hkey : planeKey x y ≠ planeKey p.x p.y := mt (planeKey_inj hx hp).1 hne
  unfold drawPixel SpritePlanes.element
  cases pixelOp t regs p (planeRead pl.attr p.x p.y) with
  | none => rfl
  | some v => simp only [planeRead_planeWrite_other _ _ hkey]

end

/-- A loop whose items act on element (x, y) by `g` where they hit it, and leave it alone elsewhere. -/
theorem element_foldl {α : Type} {f : SpritePlanes → α → SpritePlanes} {g : Pixel → α → Pixel} {hit : α → Bool}
    {l : List α} {x y : Nat} (h : ∀ pl, ∀ a ∈ l,
      (f pl a).element x y = if hit a = true then g (pl.element x y) a else pl.element x y) (pl : SpritePlanes) :
    (l.foldl f pl).element x y = (l.filter hit).foldl g (pl.element x y) := by
  rw [List.foldl_filter]
  refine List.foldl_rel (r := fun (pl : SpritePlanes) c => pl.element x y = c) rfl fun a ha pl c hc => ?_
  rw [h pl a ha, hc]

/-- A loop over the pixels of a segment that acts on element (x, y) at pixel p alone. -/
theorem element_foldl_segmentPixels {f : SpritePlanes → Nat → SpritePlanes} {act : Pixel → Pixel} {g : Segment}
    {p x y : Nat} (h : ∀ pl, ∀ q ∈ segmentPixels g,
      (f pl q).element x y = if q = p then act (pl.element x y) else pl.element x y) (pl : SpritePlanes) :
    ((segmentPixels g).foldl f pl).element x y =
      if coversPixel p g = true then act (pl.element x y) else pl.element x y := by
  have hhit : (segmentPixels g).filter (fun q => decide (q = p)) = if coversPixel p g then [p] else [] := by
    rw [List.filter_eq, count_segmentPixels]
    split <;> rfl
  rw [element_foldl (g := fun c _ => act c) (hit := fun q => decide (q = p)) (by simpa using h), hhit]
  split <;> rfl

/-! ### The pixels of a segment pair (R147) -/

/-- The screen column of plane column x (R61). -/
def screenX (s : State) (x : Nat) : Nat := (visMinX s.regs).toNat + x

/-- The screen row of plane row y (R61). -/
def screenY (s : State) (y : Nat) : Nat := (visMinY s.regs).toNat + y

/-- What drawing the segment pair (gx, gy) makes of element (x, y), where both cover its screen pixel. -/
def pairResult (s : State) (k : SpritePaint) (x y : Nat) (gx gy : Segment) (old : Pixel) : Pixel :=
  pixelResult k.tdv s.regs (pixelArgsAt s k gx gy (screenX s x) (screenY s y)) old

section
variable {s : State} {r : SpriteRecord} {k : SpritePaint} {gx gy : Segment} {px py x y : Nat}

theorem pixelArgsAt_x_eq_iff (hgx : gx ∈ recordSegmentsX s r) (hpx : px ∈ segmentPixels gx) :
    (pixelArgsAt s k gx gy px py).x = x ↔ px = screenX s x := by
  obtain ⟨hlo, -⟩ := tlg_within hgx
  obtain ⟨hmin, -⟩ := mem_segmentPixels.1 hpx
  simp only [pixelArgsAt, screenX]
  omega

theorem pixelArgsAt_y_eq_iff (hgy : gy ∈ recordSegmentsY s r) (hpy : py ∈ segmentPixels gy) :
    (pixelArgsAt s k gx gy px py).y = y ↔ py = screenY s y := by
  obtain ⟨hlo, -⟩ := tlg_within hgy
  obtain ⟨hmin, -⟩ := mem_segmentPixels.1 hpy
  simp only [pixelArgsAt, screenY]
  omega

/-- The pixel operation at a screen pixel acts on that pixel's element alone. -/
theorem element_drawPixel (hgx : gx ∈ recordSegmentsX s r) (hgy : gy ∈ recordSegmentsY s r)
    (hpx : px ∈ segmentPixels gx) (hpy : py ∈ segmentPixels gy) (hx : x < rectW s.regs) (pl : SpritePlanes) :
    (drawPixel k.tdv s.regs (pixelArgsAt s k gx gy px py) pl).element x y =
      if px = screenX s x ∧ py = screenY s y then pairResult s k x y gx gy (pl.element x y) else pl.element x y := by
  have hcol : (pixelArgsAt s k gx gy px py).x = x ↔ px = screenX s x := pixelArgsAt_x_eq_iff hgx hpx
  have hrow : (pixelArgsAt s k gx gy px py).y = y ↔ py = screenY s y := pixelArgsAt_y_eq_iff hgy hpy
  split
  next h =>
    rw [element_drawPixel_same _ _ _ (hcol.2 h.1) (hrow.2 h.2), h.1, h.2]
    rfl
  next h =>
    have hwidth := rectW_le s.regs
    have hpx' : (pixelArgsAt s k gx gy px py).x < rectW s.regs := pixelArgsAt_x_lt hgx hpx
    refine element_drawPixel_other _ _ _ (by omega) (by omega) fun he => h ?_
    exact ⟨hcol.1 he.1.symm, hrow.1 he.2.symm⟩

/-- Two tests of one item commute. -/
theorem ite_ite_swap {α : Type} (P Q : Prop) [Decidable P] [Decidable Q] (a b : α) :
    (if P then if Q then a else b else b) = if Q then if P then a else b else b := by
  rw [← ite_and, ← ite_and, if_congr and_comm rfl rfl]

/-- Drawing a segment pair acts on the elements whose screen pixel both segments cover. -/
theorem element_tileDraw (hgx : gx ∈ recordSegmentsX s r) (hgy : gy ∈ recordSegmentsY s r) (hx : x < rectW s.regs)
    (pl : SpritePlanes) : (tileDraw s k gx gy pl).element x y =
      if coversPixel (screenX s x) gx = true then
        if coversPixel (screenY s y) gy = true then pairResult s k x y gx gy (pl.element x y) else pl.element x y
      else pl.element x y := by
  rw [ite_ite_swap]
  refine element_foldl_segmentPixels (act := fun c =>
    if coversPixel (screenX s x) gx = true then pairResult s k x y gx gy c else c) (fun pl py hpy => ?_) pl
  rw [ite_ite_swap]
  refine element_foldl_segmentPixels (act := fun c => if py = screenY s y then pairResult s k x y gx gy c else c)
    (fun pl px hpx => ?_) pl
  rw [element_drawPixel hgx hgy hpx hpy hx, ite_and]

/-- Drawing an unprotected record acts on an element through the segments that cover its screen pixel. -/
theorem element_drawSprite (hp : writeProtected s.regs (recordBlk r) = false) (hx : x < rectW s.regs)
    (pl : SpritePlanes) : (drawSprite s r pl).element x y =
      ((recordSegmentsY s r).filter (coversPixel (screenY s y))).foldl (fun c gy =>
        ((recordSegmentsX s r).filter (coversPixel (screenX s x))).foldl (fun c gx =>
          pairResult s (paintOf s r) x y gx gy c) c) (pl.element x y) := by
  rw [drawSprite_of_unprotected hp]
  refine element_foldl (fun pl gy hgy => ?_) pl
  rw [element_foldl (hit := coversPixel (screenX s x)) (g := fun c gx =>
    if coversPixel (screenY s y) gy = true then pairResult s (paintOf s r) x y gx gy c else c)
    fun pl gx hgx => element_tileDraw hgx hgy hx pl]
  split
  · rfl
  · exact List.foldl_fixed _

end

/-! ### The segment that covers a pixel (R121, R123) -/

/-- What a segment samples at screen pixel p: its tile-id offset and the texel (R111). -/
def segmentSample (p : Nat) (g : Segment) : Word × Nat := (g.tileIdDelta, segmentTexel g p)

/-- At a pixel of the scan range at most one segment samples, and it samples what the axis does. -/
theorem map_segmentSample {q : TlgCall} {p : Nat} (hlo : q.scanMin.toNat ≤ p) (hhi : p ≤ q.scanMax.toNat) :
    (q.segments.filter (coversPixel p)).map (segmentSample p) = (axisTexel q.axis p).toList := by
  by_cases hz : q.zoom = 0
  · have hnone : axisTexel q.axis p = none := if_pos hz
    rw [segments_of_zoom_zero hz, hnone]
    rfl
  have haxis : axisTexel q.axis p = (q.sample p).map fun m =>
      (q.delta.toList.getD (tileOf m.t) 0, ((m.t % 1024) / 64).toNat) := if_neg hz
  have hcount := (segmentsCoverExactlyOnce q hz).1 p
  cases hs : (q.sample p).isSome with
  | false =>
    rw [hs, if_neg (by simp), List.length_eq_zero_iff] at hcount
    rw [hcount, haxis, Option.isNone_iff_eq_none.1 (Option.isSome_eq_false_iff.1 hs)]
    rfl
  | true =>
    rw [if_pos ⟨hlo, hhi, hs⟩, List.length_eq_one_iff] at hcount
    obtain ⟨g, hg⟩ := hcount
    obtain ⟨hmem, hcovers⟩ := List.mem_filter.1 (hg ▸ List.mem_singleton_self g)
    simp only [coversPixel, Bool.and_eq_true, decide_eq_true_eq] at hcovers
    obtain ⟨m, hm, -, -, hdelta, htexel, hge, hlt, -⟩ := segmentTexelsStayInTile q g p hmem hcovers.1 hcovers.2
    have hmod : m.t - 1024 * (tileOf m.t : Int) = m.t % 1024 := by omega
    rw [hg, haxis, hm, List.map_singleton, segmentSample, segmentTexel, hdelta, htexel, hmod]
    rfl

/-! ### A record and a pass at one element -/

/-- The call of the Tile Layout Generator for a record's X axis (R143). -/
def recordCallX (s : State) (r : SpriteRecord) : TlgCall where
  pivot   := s.cfg.flipPivot
  scanMin := visMinX s.regs
  scanMax := visMaxX s.regs
  center  := r.posX - scrollX s.regs
  size    := r.sizeX
  zoom    := r.zoomX
  delta   := s.cfg.tileDeltaX
  flip    := r.flipX
  mirror  := r.mirrorX
  gflip   := sprGflipX s.regs

/-- The call of the Tile Layout Generator for a record's Y axis (R143). -/
def recordCallY (s : State) (r : SpriteRecord) : TlgCall where
  pivot   := s.cfg.flipPivot
  scanMin := visMinY s.regs
  scanMax := visMaxY s.regs
  center  := r.posY - scrollY s.regs
  size    := r.sizeY
  zoom    := r.zoomY
  delta   := s.cfg.tileDeltaY
  flip    := r.flipY
  mirror  := r.mirrorY
  gflip   := sprGflipY s.regs

section
variable {s : State} {x y : Nat}

theorem map_segmentSample_recordX (r : SpriteRecord) (hx : x < rectW s.regs) :
    ((recordSegmentsX s r).filter (coversPixel (screenX s x))).map (segmentSample (screenX s x)) =
      (axisTexel (recordAxisX s r) (screenX s x)).toList := by
  have hx : (visMinX s.regs).toNat + x ≤ (visMaxX s.regs).toNat := by unfold rectW at hx; omega
  exact map_segmentSample (q := recordCallX s r) (Nat.le_add_right _ _) hx

theorem map_segmentSample_recordY (r : SpriteRecord) (hy : y < rectH s.regs) :
    ((recordSegmentsY s r).filter (coversPixel (screenY s y))).map (segmentSample (screenY s y)) =
      (axisTexel (recordAxisY s r) (screenY s y)).toList := by
  have hy : (visMinY s.regs).toNat + y ≤ (visMaxY s.regs).toNat := by unfold rectH at hy; omega
  exact map_segmentSample (q := recordCallY s r) (Nat.le_add_right _ _) hy

/-- Drawing an unprotected record runs one pixel operation at an element, where both axes sample its screen pixel. -/
theorem element_drawSprite_texels {r : SpriteRecord} (hp : writeProtected s.regs (recordBlk r) = false)
    (hx : x < rectW s.regs) (hy : y < rectH s.regs) (pl : SpritePlanes) : (drawSprite s r pl).element x y =
      (axisTexel (recordAxisY s r) (screenY s y)).toList.foldl (fun c ty =>
        (axisTexel (recordAxisX s r) (screenX s x)).toList.foldl (fun c tx =>
          pixelResult (recordTdv s.regs r) s.regs (recordPixel s r (screenX s x) (screenY s y) tx ty) c) c)
        (pl.element x y) := by
  rw [element_drawSprite hp hx, ← map_segmentSample_recordX r hx, ← map_segmentSample_recordY r hy]
  simp only [List.foldl_map]
  rfl

/-- Drawing a record makes of an element what the reference makes of it. -/
theorem element_drawSprite_eq_spriteElement (r : SpriteRecord) (hx : x < rectW s.regs) (hy : y < rectH s.regs)
    (pl : SpritePlanes) : (drawSprite s r pl).element x y =
      spriteElement s r (screenX s x) (screenY s y) (pl.element x y) := by
  unfold spriteElement
  cases hp : writeProtected s.regs (recordBlk r) with
  | true => rw [drawSprite_of_protected hp, if_pos rfl]
  | false =>
    rw [element_drawSprite_texels hp hx hy, if_neg Bool.false_ne_true]
    cases axisTexel (recordAxisX s r) (screenX s x) with
    | none => cases axisTexel (recordAxisY s r) (screenY s y) <;> rfl
    | some tx => cases axisTexel (recordAxisY s r) (screenY s y) <;> rfl

/-- A pass leaves in an element what the reference leaves in it. -/
theorem element_drawnPlanes (hx : x < rectW s.regs) (hy : y < rectH s.regs) :
    (drawnPlanes s).element x y = composeElement s (screenX s x) (screenY s y) := by
  unfold composeElement drawnPlanes
  refine (List.foldl_hom (fun pl : SpritePlanes => pl.element x y) (init := ⟨[], []⟩) fun pl b => ?_).symm
  cases bucketOwner s b with
  | none => rfl
  | some i => exact (element_drawSprite_eq_spriteElement _ hx hy pl).symm

end

end Sys2Proof.Machine
end

section
/-! SUPPORT. The parts that the element-wise reference shares with the compositor, from raw bits: the record fields (R86,
R159), the variant (R90, R146), the pixel operations (R151-R154) and the pen mask (R92). -/

namespace Sys2Proof.Machine

/-! ### Bits as arithmetic -/

theorem toNat_extractLsb'_eq {w : Nat} (v : BitVec w) (start len : Nat) :
    (v.extractLsb' start len).toNat = v.toNat / 2 ^ start % 2 ^ len := by
  rw [BitVec.extractLsb'_toNat, Nat.shiftRight_eq_div_pow]

theorem getLsbD_iff_div_mod {w : Nat} (v : BitVec w) (i : Nat) : v.getLsbD i = true ↔ v.toNat / 2 ^ i % 2 = 1 := by
  rw [← BitVec.testBit_toNat, Nat.testBit_eq_decide_div_mod_eq, decide_eq_true_eq]

/-! ### The shared parts -/

/-- BLK is the top two bits of COLOR (R159). -/
theorem val_recordBlk (r : SpriteRecord) : (recordBlk r).val = r.color.toNat / 2 ^ 14 := by
  have hcolor := r.color.isLt
  have hblk : (recordBlk r).val = r.color.toNat / 2 ^ 14 % 2 ^ 2 := toNat_extractLsb'_eq r.color 14 2
  omega

/-- The fields of a decoded record are the bits that R86 gives them. -/
theorem recordFields (s : State) (i : Byte) : RecordFields s i := by
  simp only [RecordFields, val_recordBlk, decodeRecord, recordOfWords, getLsbD_iff_div_mod, toNat_extractLsb'_eq,
    Nat.reducePow, Nat.div_one, and_self]

/-- A variant's code is its two choices, keep above detect (R90). -/
theorem tdvOfCode_codeOfTdv (t : Tdv) : tdvOfCode (codeOfTdv t) = t := by
  obtain ⟨_ | _, _ | _⟩ := t <;> rfl

theorem pixelOpsOfCodes (r : Regs) (p : PixelArgs) (old : Word) : PixelOpsOfCodes r p old := by
  refine ⟨pixelForcePlain_eq r p old, ?_, pixelKeepPlain_eq r p old, ?_⟩
  · exact (pixelForceShadow_eq r p old).trans (by rw [pixelForcePlain_eq]; rfl)
  · exact (pixelKeepShadow_eq r p old).trans (by rw [pixelKeepPlain_eq]; rfl)

theorem toNat_penMask {d : Nat} (hd : d ≤ 8) : (penMask d).toNat + 1 = 2 ^ d := by
  have hle : 2 ^ d ≤ 2 ^ 8 := Nat.pow_le_pow_right (by decide) hd
  have hpos := Nat.two_pow_pos d
  rw [penMask, BitVec.toNat_ofNat, Nat.mod_eq_of_lt (by omega)]
  omega

theorem depthOf_sprBpp (g : Regs) : depthOf (sprBpp g) = 4 + min (g.sprCtrl.toNat / 2 % 8) 4 := by
  rw [depthOf, sprBpp, toNat_extractLsb'_eq, pow_one]
  rfl

end Sys2Proof.Machine
end

section
/-! CERTIFICATES. The statement about the elements that a COMPOSE leaves (spec/42_sprite_compositor.md, R140-R154). -/

namespace Sys2Proof.Machine

/-- Settles O34: seen from one element, the pass is the reference's loop over the buckets, because of an axis' segments at
most one covers the element's screen pixel. -/
theorem composeElementsMatchReference : Obligations.ComposeElementsMatchReference := by
  unfold Obligations.ComposeElementsMatchReference
  refine ⟨fun s hr ht => ?_, recordFields, fun g r => (tdvOfCode_codeOfTdv (recordTdv g r)).symm, pixelOpsOfCodes,
    fun g => ?_, fun c id raw u v => ⟨rfl, rfl⟩⟩
  · obtain ⟨t, hexec, hcolor, hattr, hw, hh, -⟩ := exec_compose_result hr ht
    refine ⟨t, hexec, fun x y hx hy => ?_⟩
    have hin : inPlanes t x y = true := by simp [inPlanes, hw, hh, hx, hy]
    simp only [hostRead, hin, if_true, planeById, hcolor, hattr]
    rw [← SpritePlanes.element_color, ← SpritePlanes.element_attr, element_drawnPlanes hx hy]
    exact ⟨rfl, rfl⟩
  · rw [toNat_penMask (by rw [depthOf_sprBpp]; omega), depthOf_sprBpp]

end Sys2Proof.Machine
end

section
/-! SUPPORT. A layer's pixel in the mixer: visibility, compare value, key and the masks of R187 as arithmetic and bits
(spec/43_priority_mixer.md, R182-R184, R187, R188). -/

namespace Sys2Proof.Machine

section
variable (r : Regs) (l : Fin 8)

/-! ### Depth, visibility and color -/

theorem layerDepth_eq : layerDepth r l = 4 + min (r.lyrCol[l].extractLsb' 8 3).toNat 4 := rfl

theorem layerDepth_le : layerDepth r l ≤ 8 := by
  rw [layerDepth_eq]
  omega

theorem layerVisible_iff (v : Pixel) : layerVisible r l v = true ↔
    lyrDisp r l = true ∧ (v.color.toNat % 2 ^ layerDepth r l ≠ 0 ∨ attrSh v.attr = true) := by
  rw [layerVisible, Bool.and_eq_true, Bool.or_eq_true, decide_eq_true_eq, ne_eq, ← BitVec.toNat_inj,
    toNat_and_penMask _ (layerDepth_le r l)]
  rfl

theorem toNat_layerColor (c : Word) :
    (layerColor r l c).toNat = (c.toNat + 256 * (lyrBank r l).toNat) % 65536 := by
  have hbank := (lyrBank r l).isLt
  rw [layerColor, BitVec.toNat_add, BitVec.toNat_shiftLeft, BitVec.toNat_setWidth, Nat.shiftLeft_eq]
  omega

/-! ### Priority and key -/

theorem toNat_compareValue (c : Word) : (compareValue r l c).toNat = c.toNat / 2 ^ layerDepth r l % 256 := by
  rw [compareValue, BitVec.toNat_setWidth, BitVec.toNat_ushiftRight, Nat.shiftRight_eq_div_pow]

/-- The alternate priority counts: layer 0 or 1, enabled, and the compare value above the threshold (R183). -/
def AlternateCounts (c : Word) : Prop :=
  l.val < 2 ∧ lyrOvrEn r l = true ∧ (lyrOvrThr r l).toNat < c.toNat / 2 ^ layerDepth r l % 256

variable {r l} in
theorem effectivePriority_of_alternateCounts {c : Word} (h : AlternateCounts r l c) :
    effectivePriority r l c = lyrAlt r l := by
  rw [AlternateCounts, ← toNat_compareValue] at h
  exact if_pos h

variable {r l} in
theorem effectivePriority_of_not_alternateCounts {c : Word} (h : ¬AlternateCounts r l c) :
    effectivePriority r l c = lyrPri r l := by
  rw [AlternateCounts, ← toNat_compareValue] at h
  exact if_neg h

theorem layerKey_eq (e : Byte) :
    layerKey r l e = 8 * (e ^^^ (if mixPinv r then 0xFF else 0)).toNat + l.val := by
  rw [layerKey, ← Nat.shiftLeft_add_eq_or_of_lt (show l.val < 2 ^ 3 from l.isLt), Nat.shiftLeft_eq, Nat.mul_comm]

theorem layerKey_lt (e : Byte) : layerKey r l e < 2048 := by
  rw [layerKey_eq]
  omega

theorem layerKey_of_not_pinv (h : mixPinv r = false) (e : Byte) : layerKey r l e = 8 * e.toNat + l.val := by
  simp [layerKey_eq, h]

theorem layerKey_of_pinv (h : mixPinv r = true) (e : Byte) : layerKey r l e = 8 * (255 - e.toNat) + l.val := by
  have hxor : e ^^^ 0xFF = ~~~e := BitVec.xor_allOnes
  rw [layerKey_eq, if_pos h, hxor, BitVec.toNat_not]

/-! ### BMASK and MMASK -/

theorem maskAttr_eq (a : Word) : maskAttr r l a =
    (a &&& 0xFC00#16) ||| (a &&& (lyrBmask r l).setWidth 16) ||| (a &&& ((lyrMmask r l).setWidth 16 <<< 8)) := rfl

/-- Bit i of what maskAttr answers: kept from bit 10 on, under BMASK below bit 8, under MMASK at bits 8 and 9. -/
theorem getLsbD_maskAttr (a : Word) (i : Nat) : (maskAttr r l a).getLsbD i =
    (a.getLsbD i && (decide (10 ≤ i) || (lyrBmask r l).getLsbD i ||
      decide (8 ≤ i) && (lyrMmask r l).getLsbD (i - 8))) := by
  by_cases hi : i < 16
  · have hkept : (0xFC00#16).getLsbD i = decide (10 ≤ i) := by revert i; decide
    have hfield : i - 8 < 16 := by omega
    simp only [maskAttr_eq, BitVec.getLsbD_or, BitVec.getLsbD_and, BitVec.getLsbD_shiftLeft, BitVec.getLsbD_setWidth,
      hkept, hi, hfield, ← Nat.not_lt (a := i) (b := 8), decide_not, decide_true, Bool.true_and, Bool.and_or_distrib_left]
  · rw [BitVec.getLsbD_of_ge _ _ (by omega), BitVec.getLsbD_of_ge a _ (by omega), Bool.false_and]

end

end Sys2Proof.Machine
end

section
/-! SUPPORT. Shadow application and the shadow tables (spec/43_priority_mixer.md, R190-R192, R196). -/

namespace Sys2Proof.Machine

/-! ### Shadow application -/

theorem and_xor_distrib {w : Nat} (a b m : BitVec w) : (a ^^^ b) &&& m = (a &&& m) ^^^ (b &&& m) := by
  ext i hi
  simp only [BitVec.getElem_and, BitVec.getElem_xor, Bool.and_xor_distrib_right]

theorem attrSh_toggle (a : Word) : attrSh (a ^^^ 0x1000) = !attrSh a := by
  simp [attrSh]

theorem toggle_and_keep (a : Word) : (a ^^^ 0x1000) &&& 0xEFFF = a &&& 0xEFFF := by
  have hmask : (0x1000 : Word) &&& 0xEFFF = 0#16 := by decide
  rw [and_xor_distrib, hmask, BitVec.xor_zero]

/-- The entry of the shadow table that the group of `a` selects; group 3 selects none (R88, R190). -/
def groupEntry (s : State) (a : Word) (pri : Byte) : Bool :=
  (attrSg a == 0 && shtEntry s 0 pri) || (attrSg a == 1 && shtEntry s 1 pri) || (attrSg a == 2 && shtEntry s 2 pri)

/-- The groups and the tables they select. -/
theorem shadowGroup_cases (s : State) (a : Word) (pri : Byte) :
    (∃ g, shadowGroup a = some g ∧ groupEntry s a pri = shtEntry s g pri) ∨
    (shadowGroup a = none ∧ groupEntry s a pri = false) := by
  unfold shadowGroup groupEntry
  have hcases : ∀ g : BitVec 2, g = 0 ∨ g = 1 ∨ g = 2 ∨ g = 3 := by decide
  obtain h | h | h | h := hcases (attrSg a) <;> rw [h]
  · exact .inl ⟨0, rfl, by simp⟩
  · exact .inl ⟨1, rfl, by simp⟩
  · exact .inl ⟨2, rfl, by simp⟩
  · exact .inr ⟨rfl, by simp⟩

section
variable {s : State} {c : Candidate}

theorem applyShadow_of_background (h : c.source = none) : applyShadow s c = ⟨c.color, c.attr⟩ := by
  rw [applyShadow, h]

theorem applyShadow_of_layer {l : Fin 8} {pri : Byte} (h : c.source = some (l, pri)) :
    applyShadow s c = ⟨c.color, if lyrShen s.regs l && attrSe c.attr && groupEntry s c.attr pri
      then c.attr ^^^ 0x1000 else c.attr⟩ := by
  rw [applyShadow, h]
  obtain ⟨g, hgroup, hentry⟩ | ⟨hgroup, hentry⟩ := shadowGroup_cases s c.attr pri <;> rw [hgroup, hentry]
  · simp only
    split <;> rfl
  · rw [Bool.and_false]
    rfl

/-- SH after shadow application: toggled exactly by a set entry for an eligible pixel of a layer with SHEN (R190). -/
theorem attrSh_applyShadow_of_layer {l : Fin 8} {pri : Byte} (h : c.source = some (l, pri)) :
    attrSh (applyShadow s c).attr =
      (attrSh c.attr ^^ (lyrShen s.regs l && attrSe c.attr && groupEntry s c.attr pri)) := by
  rw [applyShadow_of_layer h]
  cases lyrShen s.regs l && attrSe c.attr && groupEntry s c.attr pri with
  | true => rw [if_pos rfl, attrSh_toggle, Bool.xor_true]
  | false => rw [if_neg Bool.false_ne_true, Bool.xor_false]

/-- What shadow application can do: leave the pixel alone, or toggle its SH (R190, R191). -/
theorem applyShadow_cases (s : State) (c : Candidate) :
    applyShadow s c = ⟨c.color, c.attr⟩ ∨ applyShadow s c = ⟨c.color, c.attr ^^^ 0x1000⟩ := by
  cases h : c.source with
  | none => exact .inl (applyShadow_of_background h)
  | some x =>
    rw [applyShadow_of_layer h]
    split
    · exact .inr rfl
    · exact .inl rfl

end

/-! ### Shadow tables -/

section
variable (t i : Byte)

theorem shadowBit_disabled : shadowBit 0 t i = false := rfl

theorem shadowBit_ge : shadowBit 1 t i = true ↔ t ≤ i := decide_eq_true_iff

theorem shadowBit_eq : shadowBit 2 t i = true ↔ i = t := decide_eq_true_iff

theorem shadowBit_le : shadowBit 3 t i = true ↔ i ≤ t := decide_eq_true_iff

end

/-- SHD_CTRL(n) holds the mode and the threshold whole: its mask drops bits that the table does not read (R32, R42). -/
theorem computeSht_masked (v : Word) (n : Fin 3) : computeSht (v &&& fieldMask (.shdCtrl n)) = computeSht v := by
  have hmode : shdMode (v &&& 0x03FF) = shdMode v := by
    rw [shdMode, BitVec.extractLsb'_and]
    exact BitVec.and_allOnes
  have hthr : shdThr (v &&& 0x03FF) = shdThr v := by
    rw [shdThr, BitVec.extractLsb'_and]
    exact BitVec.and_allOnes
  rw [fieldMask, computeSht, hmode, hthr]
  rfl

/-- A write of SHD_CTRL(n) installs the table of the value written (R42, R223). -/
theorem sht_regWrite_shdCtrl (s : State) (n : Fin 3) (v : Word) :
    (regWrite s (regAddr (.shdCtrl n)) v).sht[n] = computeSht v := by
  rw [regWrite, regOfAddr_regAddr]
  simp [regWritable, regStore_sht, computeSht_masked]

end Sys2Proof.Machine
end

section
/-! SUPPORT. The values of a table of the layer port (spec/10_state.md, R37). -/

namespace Sys2Proof.Machine

section
variable {α : Type} (fill v : α) (cells : List (Nat × α))

theorem tableGet_nil (k : Nat) : tableGet ⟨fill, []⟩ k = fill := rfl

theorem tableGet_cons_same (k : Nat) : tableGet ⟨fill, (k, v) :: cells⟩ k = v := by
  simp [tableGet]

theorem tableGet_cons_other {j k : Nat} (h : j ≠ k) :
    tableGet ⟨fill, (k, v) :: cells⟩ j = tableGet ⟨fill, cells⟩ j := by
  rw [tableGet, tableGet, List.lookup_cons, beq_false_of_ne h]

end

end Sys2Proof.Machine
end

section
/-! SUPPORT. The front and back candidates of a pixel (spec/43_priority_mixer.md, R181, R185, R186, R193). -/

namespace Sys2Proof.Machine

/-! ### Insertion of a list of candidates -/

/-- The lower of two candidates by key, the first where the keys are equal. -/
def lowerCandidate (b c : Candidate) : Candidate := if c.key < b.key then c else b

/-- The lowest of a list of candidates by key, `b` where none of them is below it. -/
def lowestFrom (b : Candidate) (cs : List Candidate) : Candidate := cs.foldl lowerCandidate b

section
variable {b c f : Candidate} {cs : List Candidate}

theorem lowerCandidate_of_lt (h : c.key < b.key) : lowerCandidate b c = c := if_pos h

theorem lowerCandidate_of_not_lt (h : ¬c.key < b.key) : lowerCandidate b c = b := if_neg h

theorem lt_key_lowerCandidate {k : Nat} (hb : k < b.key) (hc : k < c.key) : k < (lowerCandidate b c).key := by
  unfold lowerCandidate
  split
  · exact hc
  · exact hb

theorem lowestFrom_eq_self (h : ∀ d ∈ cs, ¬d.key < b.key) : lowestFrom b cs = b := by
  induction cs with
  | nil => rfl
  | cons d cs ih =>
    rw [List.forall_mem_cons] at h
    exact (congrArg (lowestFrom · cs) (lowerCandidate_of_not_lt h.1)).trans (ih h.2)

/-- A candidate below `b` and below every other of the list is its lowest. -/
theorem lowestFrom_eq_of_mem (hc : c ∈ cs) (hb : c.key < b.key) (h : ∀ d ∈ cs, d = c ∨ c.key < d.key) :
    lowestFrom b cs = c := by
  induction cs generalizing b with
  | nil => cases hc
  | cons d cs ih =>
    rw [List.forall_mem_cons] at h
    obtain ⟨hd, hcs⟩ := h
    obtain rfl | hdc := eq_or_ne d c
    · have hkeep : ∀ e ∈ cs, ¬e.key < d.key := fun e he =>
        (hcs e he).elim (fun heq => by simp [heq]) Nat.lt_asymm
      exact (congrArg (lowestFrom · cs) (lowerCandidate_of_lt hb)).trans (lowestFrom_eq_self hkeep)
    · exact ih ((List.mem_cons.1 hc).resolve_left hdc.symm) (lt_key_lowerCandidate hb (hd.resolve_left hdc)) hcs

theorem lt_key_lowestFrom {k : Nat} (hb : k < b.key) (h : ∀ d ∈ cs, k < d.key) : k < (lowestFrom b cs).key := by
  induction cs generalizing b with
  | nil => exact hb
  | cons d cs ih =>
    rw [List.forall_mem_cons] at h
    exact ih (lt_key_lowerCandidate hb h.1) h.2

/-- The front is the lowest of the candidates inserted. -/
theorem foldl_insertCandidate_fst (fb : Candidate × Candidate) (cs : List Candidate) :
    (cs.foldl insertCandidate fb).1 = lowestFrom fb.1 cs := by
  induction cs generalizing fb with
  | nil => rfl
  | cons d cs ih =>
    have hstep : (insertCandidate fb d).1 = lowerCandidate fb.1 d := by
      unfold insertCandidate lowerCandidate
      split_ifs <;> rfl
    rw [List.foldl_cons, ih, hstep]
    rfl

/-- While no candidate is below the front, the back is the lowest of those inserted. -/
theorem foldl_insertCandidate_of_front (h : ∀ d ∈ cs, ¬d.key < f.key) :
    cs.foldl insertCandidate (f, b) = (f, lowestFrom b cs) := by
  induction cs generalizing b with
  | nil => rfl
  | cons d cs ih =>
    rw [List.forall_mem_cons] at h
    have hstep : insertCandidate (f, b) d = (f, lowerCandidate b d) := by
      unfold insertCandidate lowerCandidate
      rw [if_neg h.1]
      split_ifs <;> rfl
    rw [List.foldl_cons, hstep, ih h.2]
    rfl

/-- A candidate below the background and all the others ends in front, with the lowest of the others behind it. -/
theorem foldl_insertCandidate_of_lowest {xs ys : List Candidate} (hb : c.key < b.key)
    (h : ∀ d ∈ xs ++ ys, c.key < d.key) :
    (xs ++ c :: ys).foldl insertCandidate (b, b) = (c, lowestFrom b (xs ++ ys)) := by
  rw [List.forall_mem_append] at h
  obtain ⟨hxs, hys⟩ := h
  have hfront : c.key < (xs.foldl insertCandidate (b, b)).1.key := by
    rw [foldl_insertCandidate_fst]
    exact lt_key_lowestFrom hb hxs
  calc (xs ++ c :: ys).foldl insertCandidate (b, b)
      = ys.foldl insertCandidate (insertCandidate (xs.foldl insertCandidate (b, b)) c) := by
        rw [List.foldl_append, List.foldl_cons]
    _ = ys.foldl insertCandidate (c, (xs.foldl insertCandidate (b, b)).1) := by
        rw [insertCandidate, if_pos hfront]
    _ = (c, lowestFrom (lowestFrom b xs) ys) := by
        rw [foldl_insertCandidate_of_front fun d hd => Nat.lt_asymm (hys d hd), foldl_insertCandidate_fst]
    _ = (c, lowestFrom b (xs ++ ys)) := by
        rw [lowestFrom, lowestFrom, lowestFrom, List.foldl_append]

end

/-! ### The layers shown at a pixel -/

/-- The layers that show at a pixel, in evaluation order. -/
def shownLayers (s : State) (x y sx sy : Nat) : List (Fin 8) :=
  layerOrder.filter fun l => layerVisible s.regs l (layerPixel s l x y sx sy)

/-- The background candidate at a screen coordinate. -/
def backgroundAt (s : State) (sx sy : Nat) : Candidate := background (tableGet s.layers.bg (screenKey sx sy))

section
variable (s : State) (x y sx sy : Nat)

theorem mixCandidates_eq : mixCandidates s x y sx sy =
    ((shownLayers s x y sx sy).map (candidateAt s x y sx sy)).foldl insertCandidate
      (backgroundAt s sx sy, backgroundAt s sx sy) := by
  rw [List.foldl_map, shownLayers, List.foldl_filter]
  rfl

variable {s x y sx sy}

theorem mem_layerOrder (l : Fin 8) : l ∈ layerOrder := by revert l; decide

theorem mem_shownLayers {l : Fin 8} : l ∈ shownLayers s x y sx sy ↔ layerShows s x y sx sy l := by
  simp [shownLayers, layerShows, mem_layerOrder]

theorem nodup_shownLayers : (shownLayers s x y sx sy).Nodup :=
  List.Nodup.filter _ (by decide)

theorem key_candidateAt_lt (l : Fin 8) : (candidateAt s x y sx sy l).key < (backgroundAt s sx sy).key :=
  layerKey_lt s.regs l _

/-- With the shown layer of lowest key in front, the back is the lowest of the other shown layers, whose list is `ks`. -/
theorem mixCandidates_of_lowest {l : Fin 8} (hl : layerShows s x y sx sy l)
    (hlow : ∀ k, layerShows s x y sx sy k → k ≠ l → (candidateAt s x y sx sy l).key < (candidateAt s x y sx sy k).key) :
    ∃ ks : List (Fin 8), (∀ k, k ∈ ks ↔ layerShows s x y sx sy k ∧ k ≠ l) ∧
      mixCandidates s x y sx sy =
        (candidateAt s x y sx sy l, lowestFrom (backgroundAt s sx sy) (ks.map (candidateAt s x y sx sy))) := by
  obtain ⟨as, bs, hsplit⟩ := List.append_of_mem (mem_shownLayers.2 hl)
  have hmem : ∀ k, k ∈ as ++ bs ↔ layerShows s x y sx sy k ∧ k ≠ l := by
    have hnodup := nodup_shownLayers (s := s) (x := x) (y := y) (sx := sx) (sy := sy)
    rw [hsplit, List.nodup_middle, List.nodup_cons] at hnodup
    intro k
    rw [← mem_shownLayers, hsplit]
    have hne : k ∈ as ++ bs → k ≠ l := fun hk heq => hnodup.1 (heq ▸ hk)
    simp only [List.mem_append, List.mem_cons] at hne ⊢
    tauto
  refine ⟨as ++ bs, hmem, ?_⟩
  rw [mixCandidates_eq, hsplit, List.map_append, List.map_cons, List.map_append]
  refine foldl_insertCandidate_of_lowest (key_candidateAt_lt l) fun d hd => ?_
  rw [← List.map_append] at hd
  obtain ⟨k, hk, rfl⟩ := List.mem_map.1 hd
  obtain ⟨hshows, hne⟩ := (hmem k).1 hk
  exact hlow k hshows hne

end

end Sys2Proof.Machine
end

section
/-! CERTIFICATES. The statements about the mixer (spec/43_priority_mixer.md, R181-R196). -/

namespace Sys2Proof.Machine

/-- Settles O53: the candidate of lowest key ends in front wherever it is inserted, and behind it stands the lowest of
the others, which are what the slots would hold without it. -/
theorem frontAndBackHaveLowestKeys : Obligations.FrontAndBackHaveLowestKeys := by
  unfold Obligations.FrontAndBackHaveLowestKeys
  intro s x y sx sy shows cand bg fb
  refine ⟨fun hnone => ?_, fun l hl hlow => ?_⟩
  · have hempty : shownLayers s x y sx sy = [] :=
      List.eq_nil_iff_forall_not_mem.2 fun l hl => hnone l (mem_shownLayers.1 hl)
    exact (mixCandidates_eq s x y sx sy).trans (by rw [hempty]; rfl)
  · obtain ⟨ks, hks, hfb⟩ := mixCandidates_of_lowest hl hlow
    refine ⟨congrArg Prod.fst hfb, fun honly => ?_, fun m hm hml hsecond => ?_⟩
    · have hempty : ks = [] := List.eq_nil_iff_forall_not_mem.2 fun k hk =>
        have ⟨hshows, hne⟩ := (hks k).1 hk
        hne (honly k hshows)
      exact (congrArg Prod.snd hfb).trans (by rw [hempty]; rfl)
    · refine (congrArg Prod.snd hfb).trans (lowestFrom_eq_of_mem (List.mem_map_of_mem ((hks m).2 ⟨hm, hml⟩))
        (key_candidateAt_lt m) fun d hd => ?_)
      obtain ⟨k, hk, rfl⟩ := List.mem_map.1 hd
      obtain ⟨hshows, hne⟩ := (hks k).1 hk
      exact (eq_or_ne k m).imp (congrArg _) (hsecond k hshows hne)

/-- Settles O54: the index fills the three bits below the priority, so the key is their sum and neither disturbs the other. -/
theorem keyPacksPriorityAndLayer : Obligations.KeyPacksPriorityAndLayer := by
  unfold Obligations.KeyPacksPriorityAndLayer
  refine fun r l e => ⟨layerKey_eq r l e, layerKey_lt r l e, fun l' e' h => ?_, fun l' h => ?_⟩
  · rw [layerKey_eq, layerKey_eq] at h
    omega
  · rw [layerKey_eq, layerKey_eq]
    omega

/-- Settles O55: the inverted priority is 255 minus the priority, and one step of priority outweighs every layer index. -/
theorem pinvReversesPriorities : Obligations.PinvReversesPriorities := by
  unfold Obligations.PinvReversesPriorities
  refine fun r l l' e e' he => ⟨fun h => ?_, fun h => ?_⟩ <;> rw [BitVec.lt_def] at he
  · rw [layerKey_of_not_pinv _ _ h, layerKey_of_not_pinv _ _ h]
    omega
  · rw [layerKey_of_pinv _ _ h, layerKey_of_pinv _ _ h]
    omega

/-- Settles O56: the compare value is a quotient of the color, and the three conditions are those of AlternateCounts. -/
theorem overrideOnlyForFirstTwoLayers : Obligations.OverrideOnlyForFirstTwoLayers := by
  unfold Obligations.OverrideOnlyForFirstTwoLayers
  refine fun r l c => ⟨layerDepth_eq r l, fun hl => ?_, fun hen => ?_, fun hthr => ?_, fun hl hen hthr => ?_⟩
  · exact effectivePriority_of_not_alternateCounts fun ⟨hfirst, _, _⟩ => absurd hfirst (Nat.not_lt.2 hl)
  · exact effectivePriority_of_not_alternateCounts fun ⟨_, henabled, _⟩ => absurd henabled (by simp [hen])
  · exact effectivePriority_of_not_alternateCounts fun ⟨_, _, habove⟩ => absurd habove (Nat.not_lt.2 hthr)
  · exact effectivePriority_of_alternateCounts ⟨hl, hen, hthr⟩

/-- Settles O57: bit by bit, each part of the word meets one of the three masks. -/
theorem masksApplyToBrightAndMixen : Obligations.MasksApplyToBrightAndMixen := by
  unfold Obligations.MasksApplyToBrightAndMixen
  refine fun r l a => ⟨?_, ?_, ?_⟩ <;> refine BitVec.eq_of_getLsbD_eq fun i hi => ?_
  · have hlow : ¬10 ≤ i ∧ ¬8 ≤ i := by omega
    simp [getLsbD_maskAttr, hlow, Bool.and_assoc]
  · have hmid : ¬10 ≤ 8 + i := by omega
    simp [getLsbD_maskAttr, hmid, Bool.and_assoc]
  · simp [getLsbD_maskAttr]

/-- Settles O58: shadow application leaves the pixel alone or toggles bit 12, and a group's entry decides which. -/
theorem shadowTogglesOnlySh : Obligations.ShadowTogglesOnlySh := by
  unfold Obligations.ShadowTogglesOnlySh
  refine fun s c => ⟨⟨rfl, rfl, rfl⟩, ?_, ?_, applyShadow_of_background, fun l pri => attrSh_applyShadow_of_layer⟩
  · obtain h | h := applyShadow_cases s c <;> rw [h]
  · obtain h | h := applyShadow_cases s c <;> rw [h]
    exact toggle_and_keep c.attr

/-- Settles O60: the pen mask is a remainder, the bank a sum, and the rest is the model's candidate. -/
theorem layerPixelsAndCandidates : Obligations.LayerPixelsAndCandidates := by
  unfold Obligations.LayerPixelsAndCandidates
  refine fun s l v x y sx sy => ⟨⟨rfl, rfl, rfl, rfl, rfl, rfl, rfl, rfl⟩, layerVisible_iff s.regs l v,
    toNat_layerColor s.regs l v.color, rfl, rfl, rfl, rfl, fun fill cells j k => ?_⟩
  exact ⟨tableGet_nil fill k, tableGet_cons_same fill v cells k, tableGet_cons_other fill v cells⟩

/-- Settles O59: an entry is ShadowBit at its index, and the mask of SHD_CTRL keeps both fields that the table reads. -/
theorem shadowTableThresholds : Obligations.ShadowTableThresholds := by
  unfold Obligations.ShadowTableThresholds
  intro v i mode thr entry
  have hentry : entry = shadowBit mode thr i := computeSht_getD v i
  have hmin : 0 ≤ i := by bv_omega
  have hmax : i ≤ 255 := by bv_omega
  refine ⟨fun h => ?_, fun h => ?_, fun h => ?_, fun h => ?_, fun s n => ⟨_, rfl, ?_⟩⟩
  · rw [hentry, h, shadowBit_disabled]
  · rw [hentry, h, shadowBit_ge]
    refine ⟨Iff.rfl, fun ht => ht ▸ hmin, fun ht => ?_⟩
    rw [ht]
    exact ⟨fun hle => BitVec.le_antisymm hmax hle, fun heq => heq ▸ hmax⟩
  · rw [hentry, h, shadowBit_eq]
  · rw [hentry, h, shadowBit_le]
    refine ⟨Iff.rfl, fun ht => ht ▸ hmax, fun ht => ?_⟩
    rw [ht]
    exact ⟨fun hle => BitVec.le_antisymm hle hmin, fun heq => heq ▸ hmin⟩
  · exact congrArg (List.getD · i.toNat false) (sht_regWrite_shdCtrl s n v)

end Sys2Proof.Machine
end

section
/-! SUPPORT. Registers and shadow tables through a register write (R223) and through RESET (R222), and what a register
read answers at an unmapped address (R224). -/

namespace Sys2Proof.Machine

/-! ### Register writes -/

section
variable (s : State) (x : Reg) (v : Word)

/-- At an RW register's address a write is the store of the masked value. -/
theorem regWrite_regAddr_of_writable (hx : regWritable x = true) :
    regWrite s (regAddr x) v = regStore s x (v &&& fieldMask x) := by
  rw [regWrite, regOfAddr_regAddr]
  exact if_pos hx

/-- A write that reaches no RW register has no effect. -/
theorem regWrite_of_noneWritable {a : Addr} (h : ∀ y, regOfAddr a = some y → regWritable y = false) :
    regWrite s a v = s := by
  rcases regWrite_cases s a v with ⟨y, hy, hw, -⟩ | ⟨he, -⟩
  · rw [h y hy] at hw
    cases hw
  · exact he

theorem regStore_sht_same (n : Fin 3) : (regStore s (.shdCtrl n) v).sht[n] = computeSht v := by
  rw [regStore_sht]
  simp

theorem regStore_sht_other {n : Fin 3} (hx : x ≠ .shdCtrl n) : (regStore s x v).sht[n] = s.sht[n] := by
  rw [regStore_sht]
  cases x with
  | shdCtrl m =>
    have hmn : m.val ≠ n.val := fun h => hx (congrArg Reg.shdCtrl (Fin.ext h))
    simp [hmn]
  | _ => rfl

/-- REG_WR at an RW register's address (R223). -/
theorem exec_regWr_of_writable (hx : regWritable x = true) :
    exec (.regWr (regAddr x) v) s = .next (respond (regStore s x (v &&& fieldMask x)) 0) := by
  rw [← regWrite_regAddr_of_writable s x v hx]
  rfl

end

theorem regRead_of_unmapped (s : State) {a : Addr} (h : regOfAddr a = none) : regRead s a = 0 := by
  rw [regRead, h]

/-! ### RESET -/

theorem shtCoherent_resetState (s : State) : shtCoherent (resetState s) := by
  intro n
  rw [resetState_sht, resetState_regs]
  simp [Regs.zero]

/-- With SHD_CTRL(n) at 0 every entry of SHT[n] is ShadowBit of mode 0 (R192). -/
theorem shtEntry_resetState (s : State) (n : Fin 3) (i : Byte) : shtEntry (resetState s) n i = false := by
  have hreg : (resetState s).regs.shdCtrl[n] = 0 := regGet_zero (.shdCtrl n)
  rw [shtEntry_of_computed (shtCoherent_resetState s n), hreg]
  exact shadowBit_disabled _ _

end Sys2Proof.Machine
end

section
/-! SUPPORT. What every instruction leaves of the tile-draw slot, and that a command always completes (R220). -/

namespace Sys2Proof.Machine

@[simp] theorem regWrite_pixelSlot (s : State) (a : Addr) (v : Word) : (regWrite s a v).pixelSlot = s.pixelSlot := by
  rw [regWrite_frame]

@[simp] theorem composePass_pixelSlot (s : State) : (composePass s).pixelSlot = s.pixelSlot := by
  rw [composePass_frame]

/-- No instruction fills or empties the tile-draw slot. -/
theorem pixelSlot_exec {i : Instr} {s t : State} (h : exec i s = .next t) : t.pixelSlot = s.pixelSlot := by
  cases execResult_of_next h with
  | regWr a d => exact regWrite_pixelSlot s a d
  | composePass => simp
  | mixPass => simp
  | _ => rfl

/-- A command of the port completes in every state: none of the seven can fault, a configuration error is a next state
(R220, R251). -/
theorem exec_completes_of_decodeCommand {w : CmdWord} {i : Instr} (h : decodeCommand w = .ok i) (s : State) :
    ∃ t, exec i s = .next t := by
  have hw := decodeResult_decodeCommand w
  rw [h] at hw
  cases hw with
  | reset | regWr | regRd | snapWr | snapRd | compose | mix => exact ⟨_, rfl⟩

end Sys2Proof.Machine
end

section
/-! SUPPORT. What a valid COMPOSE or MIX leaves (R225-R227): the planes after the start of a pass, the frame of each
pass, and the elements that a MIX computes. -/

namespace Sys2Proof.Machine

/-! ### Planes after the start of a pass -/

theorem passStart_of_resized {s : State} (h : ¬(rectW s.regs = s.allocW ∧ rectH s.regs = s.allocH)) :
    passStart s = reallocate s (rectW s.regs) (rectH s.regs) :=
  if_neg h

/-- A plane that lists nothing reads 0x0000 everywhere (R41). -/
theorem planeClear_of_nil {s : State} {p : PlaneId} (h : planeById s p = []) : PlaneClear s p := by
  intro x y hx hy
  simp [hostRead, inPlanes, hx, hy, h]

/-! ### COMPOSE -/

/-- Beside the sprite planes, SPR_COLLISIONS and DIAG a pass changes what the start of a pass changes. -/
theorem composeFrame_pass (s : State) : ComposeFrame s (respond (composePass (passStart s)) 0) := by
  refine ⟨?_, fun hw hh => ?_, fun hsize => ?_⟩
  · conv_lhs => rw [composePass_frame]
    simp [respond]
  · rw [passStart_eq_self hw.symm hh.symm]
    simp
  · rw [passStart_of_resized hsize]
    refine ⟨?_, ?_, ?_, ?_⟩ <;> exact planeClear_of_nil (by simp [planeById])

section
variable {s : State} (h : ∀ i, (decodeRecord s i).active = false)
include h

/-- With no active record no bucket has an owner (R141). -/
theorem bucketOwner_of_noneActive (b : Byte) : bucketOwner s b = none :=
  bucketOwner_eq_none_iff.2 fun i => by simp [inBucket, h i]

theorem collisions_of_noneActive : collisions s = [] := by
  refine List.filterMap_eq_nil_iff.2 fun i _ => ?_
  simp [collisionOf, recordBucket, h i]

/-- With no owner there is nothing to draw on the cleared planes (R140). -/
theorem drawnPlanes_of_noneActive : drawnPlanes s = ⟨[], []⟩ := by
  unfold drawnPlanes
  simp only [bucketOwner_of_noneActive h]
  exact List.foldl_fixed _

end

/-! ### MIX -/

/-- A valid MIX runs its pass on the machine after the start of a pass (R226). -/
theorem exec_mix_of_valid {s : State} (hr : rectValid s = true) :
    exec .mix s = .next (respond (mixPass (passStart s)) 0) :=
  execMix_of_noErrors (by simp [causesAny, mixErrors, hr])

/-- Beside the output planes a MIX changes what the start of a pass changes. -/
theorem mixPass_passStart_frame (s : State) :
    let t := respond (mixPass (passStart s)) 0
    t = { s with
      response := 0, allocW := rectW s.regs, allocH := rectH s.regs, sprC := t.sprC, sprA := t.sprA
      frC := t.frC, frA := t.frA, bkC := t.bkC, bkA := t.bkA } := by
  simp [respond, mixPass]

/-- The host reads in a computed plane what was computed for the element (R229). -/
theorem hostRead_of_planeOf {s : State} (p : PlaneId) {f : Nat → Nat → Word} {x y : Nat}
    (hp : planeById s p = planeOf s.allocW s.allocH f) (hw : s.allocW ≤ 1024) (hx : x < s.allocW) (hy : y < s.allocH) :
    hostRead s p x y = some (f x y) := by
  have hin : inPlanes s x y = true := by simp [inPlanes, hx, hy]
  rw [hostRead, if_pos hin, hp, planeRead_planeOf f hw hx hy]

/-- The mixer reads neither the output planes nor the response, which are all that a MIX pass changes. -/
theorem mixPixel_mixPass (s : State) (v : Word) : mixPixel (respond (mixPass s) v) = mixPixel s := rfl

/-- The elements of the four output planes after a MIX pass (R180). -/
theorem hostRead_mixPass {s t : State} {x y : Nat} {v : Word} (ht : t = respond (mixPass s) v) (hw : s.allocW ≤ 1024)
    (hx : x < s.allocW) (hy : y < s.allocH) :
    hostRead t .frC x y = some (mixPixel t x y).1.color ∧ hostRead t .frA x y = some (mixPixel t x y).1.attr ∧
    hostRead t .bkC x y = some (mixPixel t x y).2.color ∧ hostRead t .bkA x y = some (mixPixel t x y).2.attr := by
  rw [ht, mixPixel_mixPass]
  exact ⟨hostRead_of_planeOf .frC (mixPass_frC s) hw hx hy, hostRead_of_planeOf .frA (mixPass_frA s) hw hx hy,
    hostRead_of_planeOf .bkC (mixPass_bkC s) hw hx hy, hostRead_of_planeOf .bkA (mixPass_bkA s) hw hx hy⟩

/-- The mixer counts screen coordinates from the corner of the rectangle, which is read from the registers (R180). -/
theorem mixPixel_of_regs_eq {s t : State} (h : t.regs = s.regs) (x y : Nat) :
    mixPixel t x y =
      let fb := mixCandidates t x y ((visMinX s.regs).toNat + x) ((visMinY s.regs).toNat + y)
      (applyShadow t fb.1, applyShadow t fb.2) := by
  rw [mixPixel, h]

end Sys2Proof.Machine
end

section
/-! CERTIFICATES. The statements about the host commands (spec/44_host_commands.md). -/

namespace Sys2Proof.Machine

/-- Settles O10: with the slot empty a step is idle, a command, which completes, or the error of a reserved OP; none of
them fills the slot. -/
theorem stepAlwaysCompletes : Obligations.StepAlwaysCompletes := by
  unfold Obligations.StepAlwaysCompletes
  intro s hslot
  rcases step_cases s with
    ⟨it, hit, -⟩ | ⟨-, -, he⟩ | ⟨c, rest, i, -, -, hd, he⟩ | ⟨c, rest, e, -, -, -, he⟩
  · rw [hslot] at hit
    cases hit
  · exact ⟨s, he, hslot⟩
  · obtain ⟨t, ht⟩ := exec_completes_of_decodeCommand hd (acceptCommand s c rest)
    exact ⟨t, he.trans ht, (pixelSlot_exec ht).trans hslot⟩
  · exact ⟨_, he, hslot⟩

/-- Settles O20: every field of the state RESET leaves, the tables as those of mode 0. -/
theorem resetCommandResult : Obligations.ResetCommandResult := by
  unfold Obligations.ResetCommandResult
  exact fun s => ⟨respond (resetState s) 0, rfl, regGet_zero, shtEntry_resetState s, rfl, rfl, rfl,
    hostRead_of_allocW_zero rfl, rfl, fun _ => rfl, rfl, rfl, rfl, rfl⟩

/-- Settles O22: at an RW register's address the write is one store; anywhere else it is none. -/
theorem regWrResult : Obligations.RegWrResult := by
  unfold Obligations.RegWrResult
  refine ⟨fun s x d hx => ⟨_, exec_regWr_of_writable s x d hx, ?_, fun y hy => ?_, fun n hn => ?_, fun n hn => ?_, ?_⟩,
    fun s a d h => ?_⟩
  · rw [respond_regs, regStore_regs, regGet_regSet_same]
  · rw [respond_regs, regStore_regs, regGet_regSet_other _ _ hy]
  · subst hn
    exact regStore_sht_same s _ n
  · exact regStore_sht_other s x _ hn
  · exact congrArg (respond · 0) (regStore_frame s x _)
  · exact congrArg (fun t => Host.Outcome.next (respond t 0)) (regWrite_of_noneWritable s d h)

/-- Settles O23: what a read answers at a register's address and at an unmapped one. -/
theorem regRdResult : Obligations.RegRdResult := by
  unfold Obligations.RegRdResult
  exact ⟨fun s x => congrArg (Host.Outcome.next ∘ respond s) (regRead_regAddr s x),
    fun s a h => congrArg (Host.Outcome.next ∘ respond s) (regRead_of_unmapped s h)⟩

/-- Settles O25: the written word is listed, every other word keeps its place. -/
theorem snapWrResult : Obligations.SnapWrResult := by
  unfold Obligations.SnapWrResult
  exact fun s a d => ⟨respond (snapWrite s a.toNat d) 0, rfl, snapRead_snapWrite_same s a.toNat d,
    fun b hb => snapRead_snapWrite_other s d hb, rfl⟩

/-- Settles O29: a valid COMPOSE is its pass, and the pass has the frame. -/
theorem composeCompletes : Obligations.ComposeCompletes := by
  unfold Obligations.ComposeCompletes
  exact fun s hr ht => ⟨_, exec_compose_of_valid hr ht, composeFrame_pass s⟩

/-- Settles O33: without active records the pass draws nothing on the cleared planes and has no event. -/
theorem composeWithoutActiveRecordsClears : Obligations.ComposeWithoutActiveRecordsClears := by
  unfold Obligations.ComposeWithoutActiveRecordsClears
  intro s hr ht hnone
  have hdrawn : drawnPlanes (passStart s) = ⟨[], []⟩ := by
    rw [drawnPlanes_passStart, drawnPlanes_of_noneActive hnone]
  have hevents : collisions (passStart s) = [] := by
    rw [collisions_passStart, collisions_of_noneActive hnone]
  refine ⟨_, exec_compose_of_valid hr ht, composeFrame_pass s, planeClear_of_nil ?_, planeClear_of_nil ?_, ?_, ?_⟩
  · simp [planeById, hdrawn]
  · simp [planeById, hdrawn]
  · simp [hevents]
  · simp [hevents]

/-- Settles O51: a valid MIX is its pass; the output planes are computed from MixPixel, which the pass leaves as it is. -/
theorem mixCompletes : Obligations.MixCompletes := by
  unfold Obligations.MixCompletes
  intro s hr
  refine ⟨_, exec_mix_of_valid hr, mixPass_passStart_frame s, fun hw hh => ?_, fun hsize => ?_, fun x y hx hy => ?_⟩
  · rw [passStart_eq_self hw.symm hh.symm]
    exact ⟨rfl, rfl⟩
  · rw [passStart_of_resized hsize]
    exact ⟨planeClear_of_nil rfl, planeClear_of_nil rfl⟩
  · have hpixel := mixPixel_of_regs_eq (t := respond (mixPass (passStart s)) 0) (passStart_regs s) x y
    have hread := hostRead_mixPass (s := passStart s) (x := x) (y := y) (v := 0) rfl (by simpa using rectW_le s.regs)
      (by simpa using hx) (by simpa using hy)
    rw [hpixel] at hread
    exact ⟨hpixel, hread⟩

/-- Settles O5: the words are the encodings of the instructions they are written for, and the codes are those of R90. -/
theorem specWordsDecode : Obligations.SpecWordsDecode := by
  unfold Obligations.SpecWordsDecode
  exact ⟨decode_encode (.snapWr 0x008 0x8010), decode_encode (.regWr 0x021 0x0240), decode_encode (.regRd 0x00C),
    decode_encode (.snapRd 0x008), decode_encode .reset, decode_encode .compose, decode_encode .mix,
    decodeTileDraw_forcePlain, decodeTileDraw_forceShadow, decodeTileDraw_keepPlain, decodeTileDraw_keepShadow⟩

/-- Settles O6: with the slot empty a step is the first command of the port, in the state that accepted it. -/
theorem stepRunsDecodedCommand : Obligations.StepRunsDecodedCommand := by
  unfold Obligations.StepRunsDecodedCommand
  exact fun s c rest i hslot hport hd => step_command hslot hport hd

/-- Settles O26: the read answers the word and stores nothing. -/
theorem snapRdResult : Obligations.SnapRdResult := by
  unfold Obligations.SnapRdResult
  exact fun s a => rfl

end Sys2Proof.Machine
end

section
/-! SUPPORT. What each instruction and each step does to STATUS, and which command words raise which configuration error
(spec/60_exceptions.md, R250-R257). -/

namespace Sys2Proof.Machine

/-! ### Sets of causes -/

/-- A set of causes has STATUS bits iff it is not empty (R250). -/
theorem causeBits_eq_zero_iff (c : Causes) : causeBits c = 0 ↔ causesAny c = false := by
  obtain ⟨cmd, rect, tile⟩ := c
  revert cmd rect tile
  decide

/-- A command that raises nothing leaves STATUS as it is. -/
theorem or_causeBits_of_none (v : Word) {c : Causes} (h : causesAny c = false) : v ||| causeBits c = v := by
  rw [(causeBits_eq_zero_iff c).2 h]
  exact BitVec.or_zero

theorem causesAny_iff (c : Causes) : causesAny c = true ↔ c.eCmd = true ∨ c.eRect = true ∨ c.eTile = true := by
  simp only [causesAny, Bool.or_eq_true, or_assoc]

/-! ### The causes of COMPOSE and MIX (R253, R254) -/

/-- RectValid() fails on a bound out of order or a size above the installation's (R253). -/
theorem rectValid_eq_false_iff (s : State) :
    rectValid s = false ↔
      visMaxX s.regs < visMinX s.regs ∨ visMaxY s.regs < visMinY s.regs ∨
      s.cfg.maxW < rectW s.regs ∨ s.cfg.maxH < rectH s.regs := by
  rw [← Bool.not_eq_true, rectValid_iff]
  simp only [not_and_or, BitVec.not_le, Nat.not_le]

theorem causesAny_composeErrors (s : State) :
    causesAny (composeErrors s) = true ↔ rectValid s = false ∨ s.cfg.tileRomPresent = false := by
  simp [causesAny, composeErrors]

theorem causesAny_mixErrors (s : State) : causesAny (mixErrors s) = true ↔ rectValid s = false := by
  simp [causesAny, mixErrors]

/-- A COMPOSE that cannot run sets the bits of all its causes and does nothing else (R253, R254, R257). -/
theorem exec_compose_of_invalid {s : State} (h : rectValid s = false ∨ s.cfg.tileRomPresent = false) :
    exec .compose s = .next (raiseConfigError s ⟨false, !rectValid s, !s.cfg.tileRomPresent⟩) :=
  execCompose_of_errors ((causesAny_composeErrors s).2 h)

/-- A MIX that cannot run raises E_RECT alone (R253). -/
theorem exec_mix_of_invalid {s : State} (h : rectValid s = false) :
    exec .mix s = .next (raiseConfigError s ⟨false, !rectValid s, false⟩) :=
  execMix_of_errors ((causesAny_mixErrors s).2 h)

/-! ### STATUS after an instruction -/

/-- A compositor pass counts collisions but leaves STATUS as it is. -/
theorem status_composePass (s : State) : (composePass (passStart s)).regs.status = s.regs.status := by
  have hpass := composePass_regGet (passStart s) (x := .status) nofun
  rwa [passStart_regs] at hpass

theorem status_execCompose {s t : State} (h : execCompose s = .next t) :
    t.regs.status = s.regs.status ||| causeBits (composeErrors s) := by
  by_cases herr : causesAny (composeErrors s) = true
  · rw [execCompose_of_errors herr] at h
    cases h
    rfl
  · rw [execCompose_of_noErrors herr] at h
    cases h
    rw [or_causeBits_of_none _ (Bool.eq_false_iff.2 herr), respond_regs, status_composePass]

theorem status_execMix {s t : State} (h : execMix s = .next t) :
    t.regs.status = s.regs.status ||| causeBits (mixErrors s) := by
  by_cases herr : causesAny (mixErrors s) = true
  · rw [execMix_of_errors herr] at h
    cases h
    rfl
  · rw [execMix_of_noErrors herr] at h
    cases h
    rw [or_causeBits_of_none _ (Bool.eq_false_iff.2 herr), respond_regs, mixPass_regs, passStart_regs]

/-- Every instruction but RESET sets the bits of the causes it raises and clears none (R250, R256). -/
theorem status_exec {i : Instr} {s t : State} (h : exec i s = .next t) (hreset : i ≠ .reset) :
    t.regs.status = s.regs.status ||| causeBits (instrErrors i s) := by
  cases execResult_of_next h with
  | reset => exact absurd rfl hreset
  | composeError | composePass => exact status_execCompose h
  | mixError | mixPass => exact status_execMix h
  | regWr a d =>
    have hstatus := regGet_regWrite_of_readOnly s a d (x := .status) rfl
    exact hstatus.trans (or_causeBits_of_none _ rfl).symm
  | regRd | snapWr | snapRd => exact (or_causeBits_of_none _ rfl).symm
  | pixelUntouched p hi | pixelPainted p _ hi =>
    rcases hi with rfl | rfl | rfl | rfl <;> exact (or_causeBits_of_none _ rfl).symm

/-! ### What the next step performs -/

/-- The next step performs a command whose word satisfies `is`. -/
def Performs (s : State) (is : CmdWord → Prop) : Prop :=
  ∃ c rest, s.pixelSlot = none ∧ s.port = c :: rest ∧ is c.word

section
variable {s : State} {is is' : CmdWord → Prop}

theorem Performs.mono (h : Performs s is) (himp : ∀ w, is w → is' w) : Performs s is' := by
  obtain ⟨c, rest, hslot, hport, hc⟩ := h
  exact ⟨c, rest, hslot, hport, himp _ hc⟩

theorem performs_and_left {q : Prop} : (Performs s fun w => q ∧ is w) ↔ q ∧ Performs s is := by
  simp only [Performs, exists_and_left, and_left_comm]

theorem performs_of_port {c : HostCommand} {rest : List HostCommand} (hslot : s.pixelSlot = none)
    (hport : s.port = c :: rest) : Performs s is ↔ is c.word := by
  simp [Performs, hslot, hport]

theorem not_performs_of_idle (hport : s.port = []) : ¬Performs s is := by
  simp [Performs, hport]

theorem not_performs_of_pixelSlot {it : PixelItem} (hslot : s.pixelSlot = some it) : ¬Performs s is := by
  simp [Performs, hslot]

end

/-- A RESET leaves STATUS 0 (R222). -/
theorem status_of_performsReset {s t : State} (h : step s = .next t)
    (hreset : Performs s fun w => decodeCommand w = .ok .reset) : t.regs.status = 0 := by
  obtain ⟨c, rest, hslot, hport, hd⟩ := hreset
  rw [step_command hslot hport hd] at h
  cases h
  rfl

/-! ### The errors of a step -/

/-- An idle step raises nothing (R265). -/
theorem stepErrors_idle {s : State} (h : s.pixelSlot = none) (hp : s.port = []) : stepErrors s = {} := by
  simp [stepErrors, fetchNext, h, hp]

theorem instrErrors_decodeTileDraw (it : PixelItem) (s : State) : instrErrors (decodeTileDraw it) s = {} := by
  unfold decodeTileDraw
  split <;> rfl

theorem decodeTileDraw_ne_reset (it : PixelItem) : decodeTileDraw it ≠ .reset := by
  unfold decodeTileDraw
  split <;> nofun

/-- A step is a RESET, or sets exactly the bits of the causes it raises (R250, R256). -/
theorem status_step {s t : State} (h : step s = .next t) :
    (Performs s fun w => decodeCommand w = .ok .reset) ∨
      t.regs.status = s.regs.status ||| causeBits (stepErrors s) := by
  rcases step_cases s with
    ⟨it, hslot, he⟩ | ⟨hslot, hport, he⟩ | ⟨c, rest, i, hslot, hport, hd, he⟩ | ⟨c, rest, e, hslot, hport, hd, he⟩ <;>
    rw [he] at h
  · have hstatus := status_exec h (decodeTileDraw_ne_reset it)
    rw [instrErrors_decodeTileDraw] at hstatus
    exact .inr (stepErrors_pixelSlot hslot ▸ hstatus)
  · cases h
    exact .inr (stepErrors_idle hslot hport ▸ (or_causeBits_of_none _ rfl).symm)
  · by_cases hreset : i = .reset
    · exact .inl ⟨c, rest, hslot, hport, hreset ▸ hd⟩
    · have hstatus := status_exec h hreset
      rw [← stepErrors_command hslot hport hd] at hstatus
      exact .inr hstatus
  · cases h
    exact .inr (stepErrors_reserved hslot hport hd ▸ rfl)

/-- The causes that a command word raises when performed in a state: those of its instruction, or E_CMD (R250, R252). -/
def commandErrors (w : CmdWord) (s : State) : Causes :=
  match decodeCommand w with
  | .ok i => instrErrors i s
  | .error _ => { eCmd := true }

/-- Accepting a command changes nothing that a cause is read from. -/
theorem instrErrors_acceptCommand (i : Instr) (s : State) (c : HostCommand) (rest : List HostCommand) :
    instrErrors i (acceptCommand s c rest) = instrErrors i s := by
  cases i <;> rfl

theorem stepErrors_of_port {s : State} {c : HostCommand} {rest : List HostCommand} (hslot : s.pixelSlot = none)
    (hport : s.port = c :: rest) : stepErrors s = commandErrors c.word s := by
  unfold commandErrors
  cases hd : decodeCommand c.word with
  | ok i => exact (stepErrors_command hslot hport hd).trans (instrErrors_acceptCommand i s c rest)
  | error e => exact stepErrors_reserved hslot hport hd

/-- A step raises a cause iff it performs a command whose word raises it; `raised` selects the cause. -/
theorem raised_stepErrors_iff (s : State) {raised : Causes → Bool} (hnone : raised {} = false) :
    raised (stepErrors s) = true ↔ Performs s fun w => raised (commandErrors w s) = true := by
  cases hslot : s.pixelSlot with
  | some it => simp [stepErrors_pixelSlot hslot, not_performs_of_pixelSlot hslot, hnone]
  | none =>
    cases hport : s.port with
    | nil => simp [stepErrors_idle hslot hport, not_performs_of_idle hport, hnone]
    | cons c rest => rw [stepErrors_of_port hslot hport, performs_of_port hslot hport]

/-- Which words raise what: a reserved OP raises E_CMD, COMPOSE and MIX raise E_RECT on an invalid rectangle, COMPOSE raises
E_TILE without the tile-fetch capability, and nothing else is raised (R252-R254). -/
theorem commandErrors_iff (w : CmdWord) (s : State) :
    ((commandErrors w s).eCmd = true ↔ ReservedOp (opField w)) ∧
    ((commandErrors w s).eRect = true ↔ rectValid s = false ∧ (opField w = 0x06 ∨ opField w = 0x07)) ∧
    ((commandErrors w s).eTile = true ↔ s.cfg.tileRomPresent = false ∧ opField w = 0x06) := by
  have hw := decodeResult_decodeCommand w
  unfold commandErrors
  generalize decodeCommand w = r at hw
  cases hw with
  | reserved h =>
    have hcompose : opField w ≠ 6#5 := fun hop => by simp [ReservedOp, hop] at h
    have hmix : opField w ≠ 7#5 := fun hop => by simp [ReservedOp, hop] at h
    simp [h, hcompose, hmix]
  | compose h => simp [instrErrors, composeErrors, ReservedOp, h]
  | mix h => simp [instrErrors, mixErrors, ReservedOp, h]
  | reset h | regWr h | regRd h | snapWr h | snapRd h => simp [instrErrors, ReservedOp, h]

theorem stepErrors_eCmd_iff (s : State) :
    (stepErrors s).eCmd = true ↔ Performs s fun w => ReservedOp (opField w) := by
  rw [raised_stepErrors_iff s (raised := (·.eCmd)) rfl]
  simp only [(commandErrors_iff _ s).1]

theorem stepErrors_eRect_iff (s : State) : (stepErrors s).eRect = true ↔
    rectValid s = false ∧ Performs s fun w => opField w = 0x06 ∨ opField w = 0x07 := by
  rw [raised_stepErrors_iff s (raised := (·.eRect)) rfl, ← performs_and_left]
  simp only [(commandErrors_iff _ s).2.1]

theorem stepErrors_eTile_iff (s : State) : (stepErrors s).eTile = true ↔
    s.cfg.tileRomPresent = false ∧ Performs s fun w => opField w = 0x06 := by
  rw [raised_stepErrors_iff s (raised := (·.eTile)) rfl, ← performs_and_left]
  simp only [(commandErrors_iff _ s).2.2]

/-- The commands that raise something, by what they decode to (R250). -/
theorem performs_of_causesAny {s : State} (h : causesAny (stepErrors s) = true) : Performs s fun w =>
    (∃ e, decodeCommand w = .error e) ∨ (decodeCommand w = .ok .mix ∧ rectValid s = false) ∨
      (decodeCommand w = .ok .compose ∧ (rectValid s = false ∨ s.cfg.tileRomPresent = false)) := by
  rcases (causesAny_iff _).1 h with hcmd | hrect | htile
  · exact ((stepErrors_eCmd_iff s).1 hcmd).mono fun w hop => .inl ⟨_, decodeCommand_reserved hop⟩
  · obtain ⟨hrect, hops⟩ := (stepErrors_eRect_iff s).1 hrect
    refine hops.mono fun w hop => .inr ?_
    rcases hop with hop | hop
    · exact .inr ⟨decodeCommand_compose hop, .inl hrect⟩
    · exact .inl ⟨decodeCommand_mix hop, hrect⟩
  · obtain ⟨htile, hops⟩ := (stepErrors_eTile_iff s).1 htile
    exact hops.mono fun w hop => .inr (.inr ⟨decodeCommand_compose hop, .inr htile⟩)

/-! ### STATUS through a step -/

/-- A step that is not a RESET clears no bit (R256). -/
theorem status_bits_kept {s t : State} (h : step s = .next t) :
    (Performs s fun w => decodeCommand w = .ok .reset) ∨
      ∀ n : Nat, s.regs.status.getLsbD n = true → t.regs.status.getLsbD n = true := by
  refine (status_step h).imp_right fun hstatus n hn => ?_
  rw [hstatus, BitVec.getLsbD_or, hn, Bool.true_or]

/-- A step that changes STATUS without an error is a RESET. -/
theorem status_step_of_noErrors {s t : State} (h : step s = .next t) (hnone : causesAny (stepErrors s) = false) :
    (Performs s fun w => decodeCommand w = .ok .reset) ∨ t.regs.status = s.regs.status :=
  (status_step h).imp_right fun hstatus => hstatus.trans (or_causeBits_of_none _ hnone)

/-- The commands that change STATUS, by what they decode to (R250). -/
theorem performs_of_status_ne {s t : State} (h : step s = .next t) (hne : t.regs.status ≠ s.regs.status) :
    Performs s fun w => decodeCommand w = .ok .reset ∨
      (∃ e, decodeCommand w = .error e) ∨ (decodeCommand w = .ok .mix ∧ rectValid s = false) ∨
        (decodeCommand w = .ok .compose ∧ (rectValid s = false ∨ s.cfg.tileRomPresent = false)) := by
  by_cases herr : causesAny (stepErrors s) = true
  · exact (performs_of_causesAny herr).mono fun w hw => .inr hw
  · exact ((status_step_of_noErrors h (Bool.eq_false_iff.2 herr)).resolve_right hne).mono fun w hw => .inl hw

/-- A step that sets a bit of STATUS raises an error: a RESET sets none (R222). -/
theorem causesAny_of_status_bit_set {s t : State} {n : Nat} (h : step s = .next t)
    (hs : s.regs.status.getLsbD n = false) (ht : t.regs.status.getLsbD n = true) :
    causesAny (stepErrors s) = true := by
  by_contra hnone
  rcases status_step_of_noErrors h (Bool.eq_false_iff.2 hnone) with hreset | hstatus
  · simp [status_of_performsReset h hreset] at ht
  · rw [hstatus, hs] at ht
    cases ht

/-! ### Good runs -/

/-- A run is good iff it ends with STATUS 0 and none of its steps raises an error (R256, notes/assumptions/15.md). -/
theorem goodFinal_iff (k : Nat) (s : State) : goodFinal k s = true ↔
    (∃ t : State, core.run k s = .next t ∧ t.regs.status = 0) ∧
    ∀ (j : Nat) (t : State), j < k → core.run j s = .next t → causesAny (stepErrors t) = false := by
  induction k generalizing s with
  | zero =>
    constructor
    · exact fun h => ⟨⟨s, rfl, of_decide_eq_true h⟩, fun j t hj => absurd hj (Nat.not_lt_zero j)⟩
    · rintro ⟨⟨t, hrun, ht⟩, -⟩
      cases hrun
      exact decide_eq_true ht
  | succ k ih =>
    rw [goodFinal_succ_iff]
    constructor
    · rintro ⟨hnone, u, hstep, hgood⟩
      obtain ⟨⟨t, hrun, ht⟩, hrest⟩ := (ih u).1 hgood
      refine ⟨⟨t, (run_succ_of_next k hstep).trans hrun, ht⟩, fun j v hj hv => ?_⟩
      cases j with
      | zero => cases hv; exact hnone
      | succ j => exact hrest j v (by omega) ((run_succ_of_next j hstep).symm.trans hv)
    · rintro ⟨⟨t, hrun, ht⟩, hnone⟩
      obtain ⟨u, hstep⟩ : ∃ u, step s = .next u := by
        by_contra hstop
        exact run_succ_of_stop k (not_exists.1 hstop) t hrun
      have hrest := fun j v (hj : j < k) hv => hnone (j + 1) v (by omega) ((run_succ_of_next j hstep).trans hv)
      exact ⟨hnone 0 s (by omega) rfl, u, hstep,
        (ih u).2 ⟨⟨t, (run_succ_of_next k hstep).symm.trans hrun, ht⟩, hrest⟩⟩

end Sys2Proof.Machine
end

section
/-! CERTIFICATES. The statements about configuration errors and the idle machine (spec/60_exceptions.md). -/

namespace Sys2Proof.Machine

/-- Settles O14: STATUS takes bits by `or` only, and a good run raises no error, so none of its steps sets a bit. -/
theorem statusBitsSticky : Obligations.StatusBitsSticky := by
  unfold Obligations.StatusBitsSticky
  refine ⟨fun s t h => status_bits_kept h, fun j k n s t u hrun h ht hu => ?_, goodFinal_iff⟩
  have herr : causesAny (stepErrors t) = true := causesAny_of_status_bit_set h ht hu
  refine Bool.eq_false_iff.2 fun hgood => ?_
  have hnone := ((goodFinal_iff _ s).1 hgood).2 j t (by omega) hrun
  rw [herr] at hnone
  cases hnone

/-- Settles O15: a step is a RESET or sets the bits of its causes, and each cause is raised by its command words. -/
theorem statusChangesOnlyByCauses : Obligations.StatusChangesOnlyByCauses := by
  unfold Obligations.StatusChangesOnlyByCauses
  exact ⟨fun s t h hne => performs_of_status_ne h hne, fun s t h => status_step h,
    fun s => ⟨stepErrors_eCmd_iff s, stepErrors_eRect_iff s, stepErrors_eTile_iff s⟩⟩

/-- Settles O28: the bounds of the rectangle decide RectValid(), and an invalid command raises the causes that hold. -/
theorem configurationErrors : Obligations.ConfigurationErrors := by
  unfold Obligations.ConfigurationErrors
  intro s badRect failed
  have hbad : badRect → rectValid s = false := (rectValid_eq_false_iff s).2
  have hgood : ¬badRect → rectValid s = true := fun h =>
    Bool.eq_true_of_not_eq_false (mt (rectValid_eq_false_iff s).1 h)
  refine ⟨fun hr ht => ?_, fun hr ht => ?_, fun hr ht => ?_, fun hr => ?_, fun hr ht => ?_, fun hr => ?_⟩
  · rw [exec_compose_of_invalid (.inl (hbad hr)), hbad hr, ht]; rfl
  · rw [exec_compose_of_invalid (.inl (hbad hr)), hbad hr, ht]; rfl
  · rw [exec_compose_of_invalid (.inr ht), hgood hr, ht]; rfl
  · rw [exec_mix_of_invalid (hbad hr), hbad hr]; rfl
  · exact ⟨_, exec_compose_of_valid (hgood hr) ht, status_composePass s⟩
  · exact ⟨_, exec_mix_of_valid (hgood hr), by rw [respond_regs, mixPass_regs, passStart_regs]⟩

/-- Settles O9: with the slot and the port empty nothing is fetched, and the step answers the state itself. -/
theorem idleHoldsState : Obligations.IdleHoldsState := by
  unfold Obligations.IdleHoldsState
  exact fun s hslot hport => step_idle hslot hport

end Sys2Proof.Machine
end

section
/-! SUPPORT. What every instruction leaves of the installation (R282). -/

namespace Sys2Proof.Machine

@[simp] theorem regWrite_cfg (s : State) (a : Addr) (v : Word) : (regWrite s a v).cfg = s.cfg := by
  rw [regWrite_frame]

/-- No instruction changes the parameters or the capabilities. -/
theorem cfg_exec {i : Instr} {s t : State} (h : exec i s = .next t) : t.cfg = s.cfg := by
  cases execResult_of_next h with
  | regWr a d => exact regWrite_cfg s a d
  | composePass => rw [respond_cfg, composePass_cfg, passStart_cfg]
  | mixPass => rw [respond_cfg, mixPass_cfg, passStart_cfg]
  | _ => rfl

end Sys2Proof.Machine
end

section
/-! SUPPORT. What the mixer reads of a layer at a pixel: where two machines show the same layers with the same
candidates, they mix alike (R181); without its DISP bit the sprite layer shows nowhere, and on clear planes neither
(R182). -/

namespace Sys2Proof.Machine

/-- The candidates of a pixel are those of the layers that show and of the background, whatever else differs. -/
theorem mixCandidates_congr {s t : State} {x y x' y' sx sy : Nat} (hlayers : t.layers = s.layers)
    (hshows : ∀ l, layerShows t x' y' sx sy l ↔ layerShows s x y sx sy l)
    (hcand : ∀ l, layerShows s x y sx sy l → candidateAt t x' y' sx sy l = candidateAt s x y sx sy l) :
    mixCandidates t x' y' sx sy = mixCandidates s x y sx sy := by
  have hshown : shownLayers t x' y' sx sy = shownLayers s x y sx sy :=
    List.filter_congr fun l _ => Bool.eq_iff_iff.2 (hshows l)
  have hcands : (shownLayers s x y sx sy).map (candidateAt t x' y' sx sy) =
      (shownLayers s x y sx sy).map (candidateAt s x y sx sy) :=
    List.map_congr_left fun l hl => hcand l (mem_shownLayers.1 hl)
  rw [mixCandidates_eq, mixCandidates_eq, hshown, hcands, backgroundAt, backgroundAt, hlayers]

/-- Shadow application reads SHEN and the shadow tables alone (R190). -/
theorem applyShadow_congr {s t : State} (hshen : ∀ l, lyrShen t.regs l = lyrShen s.regs l) (hsht : t.sht = s.sht) :
    applyShadow t = applyShadow s := by
  funext c
  cases hsource : c.source with
  | none => rw [applyShadow_of_background hsource, applyShadow_of_background hsource]
  | some lp =>
    have hentry : groupEntry t c.attr lp.2 = groupEntry s c.attr lp.2 := by
      simp only [groupEntry, shtEntry, hsht]
    rw [applyShadow_of_layer hsource, applyShadow_of_layer hsource, hshen, hentry]

/-! ### The color controls of a layer (R35) -/

section
variable {r : Regs} {cols : Vector Word 8} {l : Fin 8} (h : cols[l] = r.lyrCol[l]) (v : Pixel)
include h

theorem layerDepth_withLyrCol : layerDepth { r with lyrCol := cols } l = layerDepth r l := by
  rw [layerDepth_eq, layerDepth_eq, h]

/-- Of LYR_COL, the visibility of a layer reads that layer's own register. -/
theorem layerVisible_withLyrCol : layerVisible { r with lyrCol := cols } l v = layerVisible r l v := by
  have hdisp : lyrDisp { r with lyrCol := cols } l = lyrDisp r l := congrArg (BitVec.getLsbD · 12) h
  rw [layerVisible, layerVisible, layerDepth_withLyrCol h, hdisp]

/-- Of LYR_COL, the candidate of a layer reads that layer's own register. -/
theorem layerCandidate_withLyrCol : layerCandidate { r with lyrCol := cols } l v = layerCandidate r l v := by
  have hbank : lyrBank { r with lyrCol := cols } l = lyrBank r l := congrArg (BitVec.extractLsb' 0 8) h
  simp only [layerCandidate, effectivePriority, compareValue, layerColor, layerDepth_withLyrCol h, hbank]
  rfl

end

/-! ### The sprite layer not displayed (R288) -/

/-- `s` with LYR_COL(4).DISP clear. -/
def State.spritesHidden (s : State) : State :=
  { s with regs := { s.regs with lyrCol := s.regs.lyrCol.set 4 (s.regs.lyrCol[4] &&& 0xEFFF) } }

section
variable (s : State) (l : Fin 8)

theorem lyrCol_spritesHidden : s.spritesHidden.regs.lyrCol[l] =
    if l = 4 then s.regs.lyrCol[l] &&& 0xEFFF else s.regs.lyrCol[l] := by
  split
  next hl => subst hl; exact Vector.getElem_set_self _
  next hl => exact Vector.getElem_set_ne (by decide) l.isLt fun he => hl (Fin.ext he.symm)

theorem lyrDisp_spritesHidden : lyrDisp s.spritesHidden.regs 4 = false := by
  rw [lyrDisp, lyrCol_spritesHidden, if_pos rfl, BitVec.getLsbD_and]
  exact Bool.and_false _

/-- SHEN is no part of DISP. -/
theorem lyrShen_spritesHidden : lyrShen s.spritesHidden.regs l = lyrShen s.regs l := by
  rw [lyrShen, lyrCol_spritesHidden]
  split
  · rw [BitVec.getLsbD_and]
    exact Bool.and_true _
  · rfl

theorem applyShadow_spritesHidden : applyShadow s.spritesHidden = applyShadow s :=
  applyShadow_congr (lyrShen_spritesHidden s) rfl

variable {s} {x y sx sy : Nat}

/-- An element that is 0x0000 in both sprite planes has neither pen bits nor SH. -/
theorem not_layerShows_sprites_of_clear (hc : planeRead s.sprC x y = 0) (ha : planeRead s.sprA x y = 0) :
    ¬layerShows s x y sx sy 4 := by
  have hpixel : layerPixel s 4 x y sx sy = ⟨planeRead s.sprC x y, planeRead s.sprA x y⟩ := rfl
  rw [layerShows, hpixel, hc, ha, layerVisible_iff]
  simp [attrSh]

/-- Without DISP the sprite layer shows nowhere (R182). -/
theorem not_layerShows_spritesHidden : ¬layerShows s.spritesHidden x y sx sy 4 := by
  rw [layerShows, layerVisible_iff, lyrDisp_spritesHidden]
  exact fun h => Bool.false_ne_true h.1

variable {l} in
theorem layerShows_spritesHidden_other (hl : l ≠ 4) :
    layerShows s.spritesHidden x y sx sy l ↔ layerShows s x y sx sy l := by
  have hcol := (lyrCol_spritesHidden s l).trans (if_neg hl)
  exact Eq.congr_left (layerVisible_withLyrCol hcol (layerPixel s l x y sx sy))

/-- On an element that is clear in the sprite planes the sprite layer mixes as if it were not displayed. -/
theorem mixPixel_spritesHidden (hc : planeRead s.sprC x y = 0) (ha : planeRead s.sprA x y = 0) :
    mixPixel s.spritesHidden x y = mixPixel s x y := by
  have hcands : ∀ sx sy, mixCandidates s.spritesHidden x y sx sy = mixCandidates s x y sx sy := by
    intro sx sy
    refine mixCandidates_congr rfl (fun l => ?_) fun l hl => ?_
    · by_cases h4 : l = 4
      · subst h4
        exact iff_of_false not_layerShows_spritesHidden (not_layerShows_sprites_of_clear hc ha)
      · exact layerShows_spritesHidden_other h4
    · have h4 : l ≠ 4 := fun he => not_layerShows_sprites_of_clear hc ha (he ▸ hl)
      exact layerCandidate_withLyrCol ((lyrCol_spritesHidden s l).trans (if_neg h4)) _
  unfold mixPixel
  simp only [hcands, applyShadow_spritesHidden]
  rfl

end

end Sys2Proof.Machine
end

section
/-! SUPPORT. COMPOSE and then MIX over other rows of the screen (R289): bucketing reads no rows, the reference element
and the mixed pixel depend on the screen coordinate and not on the element that stands for it. -/

namespace Sys2Proof.Machine

/-! ### COMPOSE -/

/-- `s` with the visible rows given by `a` and `b` (R30). -/
def State.withRows (s : State) (a b : Word) : State :=
  { s with regs := { s.regs with visMinY := a, visMaxY := b } }

section
variable (s : State) (a b : Word)

theorem collisions_withRows : collisions (s.withRows a b) = collisions s := rfl

/-- A pixel operation reads neither the rows of the rectangle nor the place of its element. -/
theorem pixelOp_withRows (t : Tdv) (p : PixelArgs) (y : Nat) (old : Word) :
    pixelOp t (s.withRows a b).regs { p with y := y } old = pixelOp t s.regs p old := by
  obtain ⟨_ | _, _ | _⟩ := t <;> rfl

/-- What a record makes of a screen pixel does not depend on the rows of the rectangle. -/
theorem spriteElement_withRows (r : SpriteRecord) (sx sy : Nat) (old : Pixel) :
    spriteElement (s.withRows a b) r sx sy old = spriteElement s r sx sy old := by
  have hop : ∀ tx ty, pixelOp (recordTdv s.regs r) (s.withRows a b).regs
      (recordPixel (s.withRows a b) r sx sy tx ty) old.attr =
        pixelOp (recordTdv s.regs r) s.regs (recordPixel s r sx sy tx ty) old.attr := fun tx ty =>
    pixelOp_withRows s a b _ (recordPixel s r sx sy tx ty) _ _
  have haxisX : recordAxisX (s.withRows a b) r = recordAxisX s r := rfl
  have haxisY : recordAxisY (s.withRows a b) r = recordAxisY s r := rfl
  have htdv : recordTdv (s.withRows a b).regs r = recordTdv s.regs r := rfl
  have hwp : writeProtected (s.withRows a b).regs (recordBlk r) = writeProtected s.regs (recordBlk r) := rfl
  simp only [spriteElement, haxisX, haxisY, htdv, hwp, hop]

theorem composeElement_withRows (sx sy : Nat) : composeElement (s.withRows a b) sx sy = composeElement s sx sy := by
  refine List.foldl_ext _ _ _ fun px c _ => ?_
  have howner : bucketOwner (s.withRows a b) c = bucketOwner s c := rfl
  rw [howner]
  cases bucketOwner s c with
  | none => rfl
  | some i => exact spriteElement_withRows s a b (decodeRecord s i) sx sy px

end

/-! ### MIX -/

/-- `t` has all that `s` has of what a MIX reads, but for the visible rows and the sprite planes. -/
structure MixesAlike (s t : State) : Prop where
  regs   : t.regs = { s.regs with visMinY := t.regs.visMinY, visMaxY := t.regs.visMaxY }
  sht    : t.sht = s.sht
  layers : t.layers = s.layers

namespace MixesAlike

variable {s t : State} (h : MixesAlike s t) {x y y' sx sy : Nat}
include h

theorem layerVisible_eq (l : Fin 8) (v : Pixel) : layerVisible t.regs l v = layerVisible s.regs l v := by
  rw [h.regs]; rfl

theorem layerCandidate_eq (l : Fin 8) (v : Pixel) : layerCandidate t.regs l v = layerCandidate s.regs l v := by
  rw [h.regs]; rfl

theorem applyShadow_eq : applyShadow t = applyShadow s :=
  applyShadow_congr (fun l => by rw [h.regs]; rfl) h.sht

/-- Every layer has one pixel at a screen coordinate, where the sprite planes have one for it. -/
theorem layerPixel_eq (hc : planeRead t.sprC x y' = planeRead s.sprC x y)
    (ha : planeRead t.sprA x y' = planeRead s.sprA x y) (l : Fin 8) :
    layerPixel t l x y' sx sy = layerPixel s l x y sx sy := by
  rw [layerPixel, layerPixel, h.layers, hc, ha]

/-- Elements that stand for one screen coordinate, and are equal in the sprite planes, mix alike. -/
theorem mixPixel_eq (hrow : (visMinY t.regs).toNat + y' = (visMinY s.regs).toNat + y)
    (hc : planeRead t.sprC x y' = planeRead s.sprC x y) (ha : planeRead t.sprA x y' = planeRead s.sprA x y) :
    mixPixel t x y' = mixPixel s x y := by
  have hminX : visMinX t.regs = visMinX s.regs := by rw [h.regs]; rfl
  have hcands : ∀ sx sy, mixCandidates t x y' sx sy = mixCandidates s x y sx sy := by
    intro sx sy
    refine mixCandidates_congr h.layers (fun l => ?_) fun l _ => ?_
    · rw [layerShows, layerShows, h.layerVisible_eq, h.layerPixel_eq hc ha]
    · rw [candidateAt, candidateAt, h.layerCandidate_eq, h.layerPixel_eq hc ha]
  simp only [mixPixel, hminX, hrow, hcands, h.applyShadow_eq]

end MixesAlike

/-! ### COMPOSE, then MIX -/

/-- The machine after a valid COMPOSE. -/
def State.composed (s : State) : State := respond (composePass (passStart s)) 0

/-- The machine after a valid COMPOSE and a MIX. -/
def State.mixed (s : State) : State := respond (mixPass s.composed) 0

section
variable {s : State}

theorem exec_compose_composed (hr : rectValid s = true) (ht : s.cfg.tileRomPresent = true) :
    exec .compose s = .next s.composed :=
  exec_compose_of_valid hr ht

theorem composed_regs : s.composed.regs = { s.regs with sprCollisions := BitVec.ofNat 16 (collisions s).length } := by
  rw [State.composed, respond_regs, composePass_regs, composePass_sprCollisions, passStart_regs, collisions_passStart]
  rfl

theorem composed_cfg : s.composed.cfg = s.cfg := by
  rw [State.composed, respond_cfg, composePass_cfg, passStart_cfg]

theorem composed_sht : s.composed.sht = s.sht := by
  rw [State.composed, respond_sht, composePass_sht, passStart_sht]

theorem composed_allocW : s.composed.allocW = rectW s.regs := by
  rw [State.composed, respond_allocW, composePass_allocW, passStart_allocW]

theorem composed_allocH : s.composed.allocH = rectH s.regs := by
  rw [State.composed, respond_allocH, composePass_allocH, passStart_allocH]

theorem composed_layers : s.composed.layers = s.layers := by
  rw [State.composed, respond_layers, composePass_frame, passStart_layers]

/-- The MIX after a COMPOSE finds planes of its size, and keeps the sprite planes. -/
theorem exec_mix_composed (hr : rectValid s = true) : exec .mix s.composed = .next s.mixed := by
  have hr' : rectValid s.composed = true := by
    rw [rectValid, composed_regs, composed_cfg]
    exact hr
  have hstart : passStart s.composed = s.composed := passStart_composePass s 0
  rw [exec_mix_of_valid hr', hstart, State.mixed]

theorem mixed_diag : s.mixed.diag = s.diag ++ collisions s := by
  rw [State.mixed, respond_diag, mixPass_diag, State.composed, respond_diag, composePass_diag, passStart_diag,
    collisions_passStart]

theorem mixed_sprCollisions : s.mixed.regs.sprCollisions = BitVec.ofNat 16 (collisions s).length := by
  rw [State.mixed, respond_regs, mixPass_regs, composed_regs]

variable {x y : Nat}

/-- The sprite planes after COMPOSE hold the reference element of every screen pixel of the rectangle. -/
theorem planeRead_composed (hx : x < rectW s.regs) (hy : y < rectH s.regs) :
    planeRead s.composed.sprC x y = (composeElement s (screenX s x) (screenY s y)).color ∧
    planeRead s.composed.sprA x y = (composeElement s (screenX s x) (screenY s y)).attr := by
  rw [State.composed, respond_sprC, respond_sprA, composePass_sprC, composePass_sprA, drawnPlanes_passStart,
    ← element_drawnPlanes hx hy, SpritePlanes.element_color, SpritePlanes.element_attr]
  exact ⟨rfl, rfl⟩

/-- The word that a plane holds for an element, of its sprite pixel and its front and back. -/
def wordOf (sprite : Pixel) (mixed : Pixel × Pixel) : PlaneId → Word
  | .sprC => sprite.color
  | .sprA => sprite.attr
  | .frC => mixed.1.color
  | .frA => mixed.1.attr
  | .bkC => mixed.2.color
  | .bkA => mixed.2.attr

/-- Every element of the six planes after COMPOSE and MIX. -/
theorem hostRead_mixed (p : PlaneId) (hx : x < rectW s.regs) (hy : y < rectH s.regs) : hostRead s.mixed p x y =
    some (wordOf (composeElement s (screenX s x) (screenY s y)) (mixPixel s.composed x y) p) := by
  have hin : inPlanes s.mixed x y = true := by
    rw [inPlanes, State.mixed, respond_allocW, respond_allocH, mixPass_allocW, mixPass_allocH, composed_allocW,
      composed_allocH]
    simp [hx, hy]
  obtain ⟨hc, ha⟩ := planeRead_composed hx hy
  have hsprC : planeById s.mixed .sprC = s.composed.sprC := by
    rw [planeById, State.mixed, respond_sprC, mixPass_sprC]
  have hsprA : planeById s.mixed .sprA = s.composed.sprA := by
    rw [planeById, State.mixed, respond_sprA, mixPass_sprA]
  have hpixel : mixPixel s.mixed = mixPixel s.composed := mixPixel_mixPass s.composed 0
  have hread := hostRead_mixPass (s := s.composed) (t := s.mixed) (v := 0) rfl
    (composed_allocW.trans_le (rectW_le s.regs)) (hx.trans_eq composed_allocW.symm) (hy.trans_eq composed_allocH.symm)
  rw [hpixel] at hread
  obtain ⟨hfrC, hfrA, hbkC, hbkA⟩ := hread
  cases p with
  | sprC => rw [hostRead, if_pos hin, hsprC, hc, wordOf]
  | sprA => rw [hostRead, if_pos hin, hsprA, ha, wordOf]
  | frC => exact hfrC
  | frA => exact hfrA
  | bkC => exact hbkC
  | bkA => exact hbkA

end

section
variable (s : State) (a b : Word)

/-- After COMPOSE the machines of other rows differ in nothing else that a MIX reads but the sprite planes. -/
theorem mixesAlike_composed : MixesAlike s.composed (s.withRows a b).composed where
  regs := by rw [composed_regs, composed_regs]; rfl
  sht := by rw [composed_sht, composed_sht]; rfl
  layers := by rw [composed_layers, composed_layers]; rfl

variable {s a b} {x y y' : Nat}

/-- In all six planes, COMPOSE and MIX over other rows leave the same word for a screen coordinate. -/
theorem hostRead_mixed_withRows (p : PlaneId) (hx : x < rectW s.regs) (hy : y < rectH s.regs)
    (hy' : y' < rectH (s.withRows a b).regs) (hrow : screenY s y = screenY (s.withRows a b) y') :
    hostRead s.mixed p x y = hostRead (s.withRows a b).mixed p x y' := by
  have hx' : x < rectW (s.withRows a b).regs := hx
  have hsprite : composeElement (s.withRows a b) (screenX (s.withRows a b) x) (screenY (s.withRows a b) y') =
      composeElement s (screenX s x) (screenY s y) := by
    rw [composeElement_withRows, hrow]; rfl
  have hminY : (visMinY (s.withRows a b).composed.regs).toNat + y' = (visMinY s.composed.regs).toNat + y := by
    rw [composed_regs, composed_regs]; exact hrow.symm
  obtain ⟨hc, ha⟩ := planeRead_composed hx hy
  obtain ⟨hc', ha'⟩ := planeRead_composed hx' hy'
  rw [hsprite] at hc' ha'
  rw [hostRead_mixed p hx hy, hostRead_mixed p hx' hy', hsprite,
    (mixesAlike_composed s a b).mixPixel_eq hminY (hc'.trans hc.symm) (ha'.trans ha.symm)]

end

end Sys2Proof.Machine
end

section
/-! CERTIFICATES. The statements about reset and hazards (spec/70_reset_and_hazards.md). -/

namespace Sys2Proof.Machine

/-- Settles O16: neither the ports, the slot, an error nor any instruction touches the installation. -/
theorem stepKeepsInstallation : Obligations.StepKeepsInstallation := by
  unfold Obligations.StepKeepsInstallation
  exact fun s t h => step_keeps (P := fun u => u.cfg = s.cfg) (fun _ hu => hu) (fun _ _ _ hu => hu) (fun _ _ hu => hu)
    (fun _ _ _ hu hexec => (cfg_exec hexec).trans hu) rfl h

/-- Settles O35: bucketing reads no rows, and each element is a function of its screen coordinate. -/
theorem scanlineBatchAgrees : Obligations.ScanlineBatchAgrees := by
  unfold Obligations.ScanlineBatchAgrees
  intro s s' a b hs' hr hr' ht
  obtain rfl : s' = s.withRows a b := hs'
  refine ⟨s.composed, s.mixed, (s.withRows a b).composed, (s.withRows a b).mixed, exec_compose_composed hr ht,
    exec_mix_composed hr, exec_compose_composed hr' ht, exec_mix_composed hr', ?_, ?_,
    fun p x y y' hx hy hy' hrow => ?_⟩
  · rw [mixed_sprCollisions, mixed_sprCollisions, collisions_withRows]
  · rw [mixed_diag, mixed_diag, collisions_withRows]; rfl
  · exact hostRead_mixed_withRows p hx hy hy' hrow

/-- Settles O52: the reallocation clears the sprite planes, and a clear sprite layer shows nowhere. -/
theorem mixAtNewSizeSeesNoSprites : Obligations.MixAtNewSizeSeesNoSprites := by
  unfold Obligations.MixAtNewSizeSeesNoSprites
  intro s hr hsize
  refine ⟨_, exec_mix_of_valid hr, fun x y _ _ => ?_⟩
  rw [passStart_of_resized hsize]
  exact (mixPixel_spritesHidden (by simp) (by simp)).symm

end Sys2Proof.Machine
end
